-- ==== Sys2Proof/Word.lean ====
section
/-!
DEFINITION. The word types of the block and their plainest bit fields (00_scope R11: bits are numbered
from 0 at the least significant bit, `v[hi:lo]` is a field).
-/

namespace Sys2Proof

/-- One byte: the unit of the framebuffer (20_memory R40), of the bus (R31) and of the one-byte operands. -/
abbrev Byte := BitVec 8

/-- One operation word, delivered whole on the operation port (30_encoding R60). -/
abbrev OpWord := BitVec 64

/-- A 7-bit device bus address (10_state R24). -/
abbrev BusAddr := BitVec 7

/-- A 16-bit field X, Y or COLOR of format P (30_encoding R64). -/
abbrev Half := BitVec 16

/-- A 24-bit field OFF or LEN of format R (30_encoding R65). -/
abbrev Field24 := BitVec 24

end Sys2Proof
end

