-- ==== Sys2Proof/Config.lean ====
section
/-!
DEFINITION. What is fixed for the block's lifetime (10_state R32, 00_scope R6 to R10): the types of the open
parameters, the constants the spec gives, and the FREE VALUES: opaque constants without a body for what the
spec leaves to data or to the world outside the block.
-/

namespace Sys2Proof

/-- The geometry check of 00_scope R6: `1 <= P_AW <= P_PANEL_W <= 32767` and `1 <= P_AH <= P_PANEL_H <= 32767`. -/
abbrev geometryOk (panelW panelH aw ah : Nat) : Prop :=
  1 ≤ aw ∧ aw ≤ panelW ∧ panelW ≤ 32767 ∧ 1 ≤ ah ∧ ah ≤ panelH ∧ panelH ≤ 32767

/-- The geometry parameters (00_scope R6). "A configuration violating any of these is ill-formed and a model
refuses it": a value of this type carries the check, so an ill-formed geometry has no value at all (log 9).
The defaults only show Lean that the type has a value; no configuration of the model is built from them. -/
structure Geometry where
  /-- `P_PANEL_W`: the panel's maximum memory extent in columns. -/
  panelW : Nat := 1
  /-- `P_PANEL_H`: the panel's maximum memory extent in rows. -/
  panelH : Nat := 1
  /-- `P_AW`: the active width. -/
  aw : Nat := 1
  /-- `P_AH`: the active height. -/
  ah : Nat := 1
  /-- The check of R6. -/
  ok : geometryOk panelW panelH aw ah := by decide
  deriving DecidableEq, Repr, Inhabited

/-- `NPAGES`, the number of 8-row pages (00_scope R7). -/
def Geometry.npages (g : Geometry) : Nat := (g.ah + 7) / 8

/-- `FB_LEN`, the framebuffer length in bytes (00_scope R7). -/
def Geometry.fbLen (g : Geometry) : Nat := g.aw * g.npages

/-- Build a geometry from four numbers, refusing an ill-formed one (00_scope R6). -/
def Geometry.make? (panelW panelH aw ah : Nat) : Option Geometry :=
  if h : geometryOk panelW panelH aw ah then some ⟨panelW, panelH, aw, ah, h⟩ else none

/-- One item of the initialization script (00_scope R9, 30_encoding R78). -/
inductive ScriptItem where
  /-- `CMD(b)`: one command byte. -/
  | cmd (b : Byte)
  /-- `DATA(b)`: one data byte. -/
  | data (b : Byte)
  /-- `WAIT(ms)`: a delay and no bus traffic. -/
  | wait (ms : Nat)
  deriving DecidableEq, Repr

/-- One item of the flush prefix: `CMD(b)` or `DATA(b)`, never a wait (00_scope R9, 44_sequencer R166). -/
inductive PrefixItem where
  | cmd (b : Byte)
  | data (b : Byte)
  deriving DecidableEq, Repr

/-- A flush prefix item as a script item: both are framed by `FrameItem` (41_protocol R110). -/
def PrefixItem.toScript : PrefixItem → ScriptItem
  | .cmd b => .cmd b
  | .data b => .data b

/-- `P_ERR_POLICY` (00_scope R9): what a failure inside a multi-step sequence does to the rest of it (R161). -/
inductive ErrPolicy where
  | accumulate
  | failFast
  deriving DecidableEq, Repr

/-- The open parameters (00_scope R6, R9, 10_state R32), and the two command bytes of the device that the
well-formedness of the scripts mentions (44_sequencer R163, R166; log 10). -/
structure Params where
  geometry : Geometry
  /-- `P_INIT_SCRIPT`. -/
  initScript : List ScriptItem
  /-- `P_FLUSH_PREFIX`. -/
  flushPrefix : List PrefixItem
  /-- `P_RESET_PIN`, the opaque identity of the reset GPIO line. -/
  resetPin : Nat
  /-- `P_ERR_POLICY`. -/
  errPolicy : ErrPolicy
  /-- The device's sleep-out command; read by the well-formedness check only. -/
  sleepOut : Byte
  /-- The device's "write to GDRAM" command; read by the well-formedness check only. -/
  gdramWrite : Byte
  deriving DecidableEq, Repr

/-- The transport's answers to one transaction (60_exceptions R210): the accepted count of the discriminator's
`write`, the accepted count of the `write` after it, and the status of `end_transaction`. The two counts are
cut to the domain `0 <= n <= len(req)` where they are drawn (Machine/Framer.lean, log 5). -/
structure TxAnswer where
  disc : Nat
  payload : Nat
  status : Nat
  deriving DecidableEq, Repr

namespace Config

/-- `P_T_SETTLE_US` (00_scope R8). -/
def settleUs : Nat := 27
/-- `P_T_RESET_LOW_MS` (00_scope R8). -/
def resetLowMs : Nat := 2
/-- `P_T_RESET_HIGH_MS` (00_scope R8). -/
def resetHighMs : Nat := 2
/-- `P_T_SLEEPOUT_MS` (00_scope R8). -/
def sleepOutMs : Nat := 50
/-- `P_T_POST_INIT_MS` (00_scope R8). -/
def postInitMs : Nat := 100
/-- The command discriminator (00_scope R10, 41_protocol R100). -/
def discCmd : Byte := 0x00#8
/-- The data discriminator (00_scope R10, 41_protocol R100). -/
def discData : Byte := 0x40#8

/-- FREE VALUE: the geometry of the block at hand (00_scope R6; N3: no panel size may be assumed; log 1). -/
opaque geometry : Geometry
/-- FREE VALUE: `P_INIT_SCRIPT` (00_scope R9; N1: no byte of it may be assumed; log 1). -/
opaque initScript : List ScriptItem
/-- FREE VALUE: `P_FLUSH_PREFIX` (00_scope R9; N2; log 1). -/
opaque flushPrefix : List PrefixItem
/-- FREE VALUE: `P_RESET_PIN` (00_scope R9; N6; log 1). -/
opaque resetPin : Nat
/-- FREE VALUE: the device's sleep-out command byte (44_sequencer R163; N1; log 10). -/
opaque sleepOut : Byte
/-- FREE VALUE: the device's "write to GDRAM" command byte (44_sequencer R166; N2; log 10). -/
opaque gdramWrite : Byte
/-- FREE VALUE: the host's byte at framebuffer index `i` before the block or the host has written it
(10_state R29: "a model takes them as an input of the run"; log 3). -/
opaque hostByte : Nat → Byte
/-- FREE VALUE: the answers the transport will give (60_exceptions R210: "free inputs"; log 4). -/
opaque transport : List TxAnswer

/-- The parameters a freshly reset block holds: free values, with the default error policy of 00_scope R9. -/
def params : Params where
  geometry := geometry
  initScript := initScript
  flushPrefix := flushPrefix
  resetPin := resetPin
  errPolicy := .accumulate
  sleepOut := sleepOut
  gdramWrite := gdramWrite

end Config

end Sys2Proof
end

