-- ==== Sys2Proof/Syntax.lean ====
section
/-!
DEFINITION. The operations of the block: one constructor per row of spec/opcode_table.json (30_encoding R67),
with the operand fields of its format (R62 to R65). A field has the width the encoding gives it, so every term
of `Instr` is an operation the encoding can hold; reserved bits have no place in it.
-/

namespace Sys2Proof

/-- An operation of the block. -/
inductive Instr where
  /-- SETUP, opcode 0x01, format B: `b` the requested device address, all 8 bits (44_sequencer R160). -/
  | setup (b : Byte)
  /-- SET_ROTATION, opcode 0x02, format B: `b` the rotation code (42_transform R125). -/
  | setRotation (b : Byte)
  /-- RESOLVE, opcode 0x03, format P with COLOR reserved (42_transform R126). -/
  | resolve (x y : Half)
  /-- PIXEL, opcode 0x04, format P (44_sequencer R164). -/
  | pixel (color x y : Half)
  /-- PSET_RAW, opcode 0x05, format P (43_framebuffer R142). -/
  | psetRaw (color x y : Half)
  /-- CLEAR, opcode 0x06, format N (43_framebuffer R144). -/
  | clear
  /-- FLUSH, opcode 0x07, format N (44_sequencer R167). -/
  | flush
  /-- SEND_CMD, opcode 0x08, format B: `b` the command byte (41_protocol R106). -/
  | sendCmd (b : Byte)
  /-- SEND_DATA, opcode 0x09, format B: `b` the data byte (41_protocol R107). -/
  | sendData (b : Byte)
  /-- SEND_RUN, opcode 0x0A, format R (41_protocol R108). -/
  | sendRun (off len : Field24)
  /-- PROBE, opcode 0x0B, format N (41_protocol R109). -/
  | probe
  deriving DecidableEq, Repr

/-- Why a word is no operation (30_encoding R68, R69). Either way the block faults with `F_ILLEGAL`. -/
inductive IllegalWord where
  /-- The opcode is 0x00 or one of 0x0C .. 0xFF (R68). -/
  | opcode
  /-- The opcode is defined and a reserved bit of its format is set (R69). -/
  | reservedBits
  deriving DecidableEq, Repr

/-- What the decoder answers: the operation, or a rejection by name (30_encoding R71). -/
inductive Decoded where
  | legal (i : Instr)
  | illegal (why : IllegalWord)
  deriving DecidableEq, Repr

/-- A line of assembly (30_encoding R72, R73): operands as the numbers written on the line, before it is known
whether they fit their fields. The last five are the pseudo-instructions. -/
inductive AsmLine where
  | setup (addr : Int)
  | setRotation (code : Int)
  | resolve (x y : Int)
  | pixel (x y color : Int)
  | psetRaw (xp yp color : Int)
  | clear
  | flush
  | sendCmd (b : Int)
  | sendData (b : Int)
  | sendRun (off len : Int)
  | probe
  | pixelOn (x y : Int)
  | pixelOff (x y : Int)
  | pset (xp yp : Int)
  | pclr (xp yp : Int)
  | sendFb
  deriving DecidableEq, Repr

end Sys2Proof
end

