-- ==== Sys2Proof/WellFormed.lean ====
section
/-!
DEFINITION. The well-formedness checks the spec states. A term of `Instr` needs none: its fields have exactly
the widths of the encoding (30_encoding R62 to R66), so every term is well formed. What can be ill formed is the
geometry (00_scope R6: `geometryOk`, carried by `Geometry`), the initialization script (44_sequencer R163),
the flush prefix (R166), and an operand on a line of assembly (30_encoding R72).
-/

namespace Sys2Proof

/-- 44_sequencer R163: the script contains the sleep-out command as a `CMD` item, and the item immediately after
it is a wait of at least `P_T_SLEEPOUT_MS`. DESIGN CHOICE (log 16): the rule speaks of one such command; of a script that
has it several times, it is enough that one of them is followed by its wait. -/
def initScriptWf (sleepOut : Byte) : List ScriptItem → Bool
  | .cmd b :: .wait t :: rest =>
    (b == sleepOut && Config.sleepOutMs ≤ t) || initScriptWf sleepOut (.wait t :: rest)
  | _ :: rest => initScriptWf sleepOut rest
  | [] => false

/-- 44_sequencer R166: the last item of the flush prefix is the "write to GDRAM" command as a `CMD` item.
That no item is a wait is the type `PrefixItem`'s. -/
def flushPrefixWf (gdramWrite : Byte) (items : List PrefixItem) : Bool :=
  items.getLast? == some (.cmd gdramWrite)

/-- Both scripts of a configuration are well formed (R163, R166). -/
def Params.scriptsWf (p : Params) : Bool :=
  initScriptWf p.sleepOut p.initScript && flushPrefixWf p.gdramWrite p.flushPrefix

/-- A number fits an unsigned field of `n` bits (30_encoding R66, R72). -/
def fitsU (n : Nat) (v : Int) : Bool := 0 ≤ v && v < 2 ^ n

/-- A number fits a signed coordinate field: 16 bits, two's complement (00_scope R11, 30_encoding R66). -/
def fitsS16 (v : Int) : Bool := -32768 ≤ v && v ≤ 32767

/-- The operands of a line fit their fields (30_encoding R72); `SEND_FB` is valid only when `FB_LEN` fits the LEN
field (R73). -/
def AsmLine.wf (g : Geometry) : AsmLine → Bool
  | .setup a => fitsU 8 a
  | .setRotation c => fitsU 8 c
  | .resolve x y => fitsS16 x && fitsS16 y
  | .pixel x y color => fitsS16 x && fitsS16 y && fitsU 16 color
  | .psetRaw xp yp color => fitsU 16 xp && fitsU 16 yp && fitsU 16 color
  | .clear => true
  | .flush => true
  | .sendCmd b => fitsU 8 b
  | .sendData b => fitsU 8 b
  | .sendRun off len => fitsU 24 off && fitsU 24 len
  | .probe => true
  | .pixelOn x y => fitsS16 x && fitsS16 y
  | .pixelOff x y => fitsS16 x && fitsS16 y
  | .pset xp yp => fitsU 16 xp && fitsU 16 yp
  | .pclr xp yp => fitsU 16 xp && fitsU 16 yp
  | .sendFb => g.fbLen ≤ 2 ^ 24 - 1

end Sys2Proof
end

