-- ==== Sys2Proof/Decode.lean ====
section
/-!
DEFINITION. The decoder of operation words (30_encoding R71), total on every 64-bit word and rejecting by name,
and the encoder written from the formats R62 to R65.
-/

namespace Sys2Proof

/-- `OPC = w[63:56]` (30_encoding R61). -/
def opcodeOf (w : OpWord) : Byte := w.extractLsb' 56 8

/-- `B = w[7:0]` of format B (30_encoding R63). -/
def fieldB (w : OpWord) : Byte := w.extractLsb' 0 8

/-- `COLOR = w[47:32]` of format P (30_encoding R64). -/
def fieldColor (w : OpWord) : Half := w.extractLsb' 32 16

/-- `X = w[31:16]` of format P (30_encoding R64). -/
def fieldX (w : OpWord) : Half := w.extractLsb' 16 16

/-- `Y = w[15:0]` of format P (30_encoding R64). -/
def fieldY (w : OpWord) : Half := w.extractLsb' 0 16

/-- `OFF = w[47:24]` of format R (30_encoding R65). -/
def fieldOff (w : OpWord) : Field24 := w.extractLsb' 24 24

/-- `LEN = w[23:0]` of format R (30_encoding R65). -/
def fieldLen (w : OpWord) : Field24 := w.extractLsb' 0 24

/-- Reserved bits of format N (30_encoding R71). -/
def maskN : OpWord := 0x00FFFFFFFFFFFFFF#64
/-- Reserved bits of format B (30_encoding R71). -/
def maskB : OpWord := 0x00FFFFFFFFFFFF00#64
/-- Reserved bits of format P (30_encoding R71). -/
def maskP : OpWord := 0x00FF000000000000#64
/-- Reserved bits of format P for RESOLVE, whose COLOR field is reserved too (30_encoding R64, R71). -/
def maskPNoColor : OpWord := 0x00FFFFFF00000000#64
/-- Reserved bits of format R (30_encoding R71). -/
def maskR : OpWord := 0x00FF000000000000#64

/-- The row of the opcode map for an opcode: its reserved mask, and the operation its fields make
(30_encoding R67); `none` for an illegal opcode (R68). -/
def rowOf (w : OpWord) : Option (OpWord × Instr) :=
  if opcodeOf w = 0x01#8 then some (maskB, .setup (fieldB w))
  else if opcodeOf w = 0x02#8 then some (maskB, .setRotation (fieldB w))
  else if opcodeOf w = 0x03#8 then some (maskPNoColor, .resolve (fieldX w) (fieldY w))
  else if opcodeOf w = 0x04#8 then some (maskP, .pixel (fieldColor w) (fieldX w) (fieldY w))
  else if opcodeOf w = 0x05#8 then some (maskP, .psetRaw (fieldColor w) (fieldX w) (fieldY w))
  else if opcodeOf w = 0x06#8 then some (maskN, .clear)
  else if opcodeOf w = 0x07#8 then some (maskN, .flush)
  else if opcodeOf w = 0x08#8 then some (maskB, .sendCmd (fieldB w))
  else if opcodeOf w = 0x09#8 then some (maskB, .sendData (fieldB w))
  else if opcodeOf w = 0x0A#8 then some (maskR, .sendRun (fieldOff w) (fieldLen w))
  else if opcodeOf w = 0x0B#8 then some (maskN, .probe)
  else none

/-- The decoding procedure of 30_encoding R71. -/
def decode (w : OpWord) : Decoded :=
  match rowOf w with
  | none => .illegal .opcode
  | some (mask, i) => if w &&& mask = 0#64 then .legal i else .illegal .reservedBits

/-- A field placed in a word with its least significant bit at position `lo` (00_scope R11). -/
def placed {n : Nat} (v : BitVec n) (lo : Nat) : OpWord := v.setWidth 64 <<< lo

/-- The word of format N: `OPC = 63:56 | 0 = 55:0` (30_encoding R62). -/
def formatN (opc : Byte) : OpWord := placed opc 56

/-- The word of format B: `OPC = 63:56 | 0 = 55:8 | B = 7:0` (30_encoding R63). -/
def formatB (opc b : Byte) : OpWord := placed opc 56 ||| placed b 0

/-- The word of format P: `OPC = 63:56 | 0 = 55:48 | COLOR = 47:32 | X = 31:16 | Y = 15:0` (30_encoding R64). -/
def formatP (opc : Byte) (color x y : Half) : OpWord :=
  placed opc 56 ||| placed color 32 ||| placed x 16 ||| placed y 0

/-- The word of format R: `OPC = 63:56 | 0 = 55:48 | OFF = 47:24 | LEN = 23:0` (30_encoding R65). -/
def formatR (opc : Byte) (off len : Field24) : OpWord := placed opc 56 ||| placed off 24 ||| placed len 0

/-- The encoder: the one word of each operation (30_encoding R67, R70). -/
def encode : Instr → OpWord
  | .setup b => formatB 0x01#8 b
  | .setRotation b => formatB 0x02#8 b
  | .resolve x y => formatP 0x03#8 0#16 x y
  | .pixel color x y => formatP 0x04#8 color x y
  | .psetRaw color x y => formatP 0x05#8 color x y
  | .clear => formatN 0x06#8
  | .flush => formatN 0x07#8
  | .sendCmd b => formatB 0x08#8 b
  | .sendData b => formatB 0x09#8 b
  | .sendRun off len => formatR 0x0A#8 off len
  | .probe => formatN 0x0B#8

/-- The decoder on an instruction numbered as spec/opcode_table.json numbers it: a row is one 64-bit word
(30_encoding R60), bit 0 its least significant bit, and the bits above `nbits` are 0. -/
def decodeTableWord (nbits w : Nat) : Option Instr :=
  match decode (BitVec.ofNat 64 (w % 2 ^ nbits)) with
  | .legal i => some i
  | .illegal _ => none

end Sys2Proof
end

