-- ==== Sys2Proof/Machine/State.lean ====
section
/-!
DEFINITION. The state of the block as plain data (10_state R20 to R33), the reasons a step can stop, and the state
right after reset (70_reset_and_hazards R230).
-/

namespace Sys2Proof.Machine

/-- The interface mode register MODE, 2 bits: one constructor per value (10_state R22). -/
inductive Mode where
  /-- 0, UNINIT. -/
  | uninit
  /-- 1, UNBUFFERED: no operation writes it. -/
  | unbuffered
  /-- 2, BUFFERED. -/
  | buffered
  /-- 3, reserved: no operation writes it. -/
  | reserved
  deriving DecidableEq, Repr

/-- The STATUS register, 2 bits: one constructor per value (10_state R26, 60_exceptions R200). -/
inductive Status where
  /-- 0, OK. -/
  | ok
  /-- 1, INVALID_ARGUMENT. -/
  | invalidArgument
  /-- 2, IO_ERROR. -/
  | ioError
  /-- 3, UNSUPPORTED. -/
  | unsupported
  deriving DecidableEq, Repr

/-- The faults an operation can raise (60_exceptions R203). -/
inductive FaultCode where
  /-- F_ILLEGAL: illegal opcode or reserved bits. -/
  | illegal
  /-- F_NOT_READY: PIXEL, PSET_RAW, CLEAR or FLUSH with READY = 0. -/
  | notReady
  /-- F_FB_RANGE: PSET_RAW outside the active area, SEND_RUN outside FB. -/
  | fbRange
  /-- F_UNBOUND: SEND_CMD, SEND_DATA or SEND_RUN with MODE = UNINIT. -/
  | unbound
  deriving DecidableEq, Repr

/-- A level of a GPIO line (10_state R31). -/
inductive Level where
  | low
  | high
  deriving DecidableEq, Repr

/-- One event of the trace (10_state R31). -/
inductive Event where
  /-- `Begin(a)`: `begin_transaction(a)`. -/
  | txBegin (a : BusAddr)
  /-- `Write(req, acc)`: one `write` of the bytes `req`, of which the transport accepted `acc`. -/
  | txWrite (req : List Byte) (acc : Nat)
  /-- `End(s)`: `end_transaction()` returned `s`. -/
  | txEnd (s : Nat)
  /-- `DelayUs(t)`. -/
  | delayUs (t : Nat)
  /-- `DelayMs(t)`. -/
  | delayMs (t : Nat)
  /-- `PinMode(p)`: `set_pin_mode(p, OUTPUT)`. -/
  | pinMode (p : Nat)
  /-- `PinWrite(p, l)`. -/
  | pinWrite (p : Nat) (l : Level)
  deriving DecidableEq, Repr

/-- Memory: the known bytes as (address, byte) cells. Canonical form: addresses strictly rising
(`Memory.wf`, Machine/Ops.lean). An address that is not listed holds the host's byte (log 3). -/
abbrev Memory := List Host.Cell

/-- The state of the block. -/
structure State where
  /-- The parameters (10_state R32): read by operations, written by none (log 1). -/
  cfg : Params
  /-- MODE (R22). -/
  mode : Mode
  /-- READY (R23). -/
  ready : Bool
  /-- ADDR (R24). -/
  addr : BusAddr
  /-- ROT (R25). -/
  rot : Byte
  /-- STATUS (R26). -/
  status : Status
  /-- RESULT (R27). -/
  result : BitVec 32
  /-- FAULT (R28): 0 is no fault. -/
  fault : Byte
  /-- FB (R29). -/
  fb : Memory
  /-- TRACE (R31), oldest event first. -/
  trace : List Event
  /-- The host's operation words, in presentation order (R21; log 7). -/
  program : List OpWord
  /-- The index of the next word in `program` (R21; log 7). -/
  pos : Nat
  /-- The model's own field: the transport's answers to the transactions to come, one each; after the last of them
  the transport never returns (60_exceptions R210; log 4). -/
  answers : List TxAnswer
  deriving DecidableEq, Repr

/-- Why a step stops with no next state. -/
inductive Fault where
  /-- Raised by `step` when FAULT is not 0: "while FAULT != 0 it accepts no operation word" (60_exceptions R203).
  Safe: the spec gives such a block no step. -/
  | stopped
  /-- Raised by a bus operation (SETUP, FLUSH, SEND_CMD, SEND_DATA, SEND_RUN, PROBE) whose transport never returns
  from a call, or that consumes every answer there is without completing: the operation never completes
  (41_protocol R105, 60_exceptions R210; log 4, log 8). Safe: nothing is claimed of such a run. -/
  | transportHang
  deriving DecidableEq, Repr

/-- Why a step has no meaning for an instruction. -/
inductive Refusal where
  /-- Raised by `exec` alone, for an instruction that has no meaning yet; no arm does so in this model. Safe. -/
  | notModelled (mnemonic : String)
  deriving DecidableEq, Repr

/-- What a meaning answers. -/
abbrev Result := Host.Outcome State Fault Refusal

/-- The block right after power-on reset (10_state R33, 70_reset_and_hazards R230). ADDR: the spec gives no value,
the model's is 0 (log 2). FB lists nothing: every byte is the host's (log 3). The parameters and the
transport's answers are free values (log 1, log 4); the host has presented no word yet (log 7). -/
def State.reset : State where
  cfg := Config.params
  mode := .uninit
  ready := false
  addr := 0#7
  rot := 0#8
  status := .ok
  result := 0#32
  fault := 0#8
  fb := []
  trace := []
  program := []
  pos := 0
  answers := Config.transport

end Sys2Proof.Machine
end

