-- ==== Sys2Proof/Machine/Flags.lean ====
section
/-!
DEFINITION. The block has no condition flags (COVERAGE B3): its only outcome values are the STATUS code, the FAULT
code and the acknowledge bit of PROBE. Their codes and how they are computed (10_state R22, R26 to R28,
60_exceptions R200, R203).
-/

namespace Sys2Proof.Machine

/-- The 2-bit value of MODE (10_state R22). -/
def Mode.code : Mode → BitVec 2
  | .uninit => 0#2
  | .unbuffered => 1#2
  | .buffered => 2#2
  | .reserved => 3#2

/-- The 2-bit value of STATUS (60_exceptions R200). -/
def Status.code : Status → BitVec 2
  | .ok => 0#2
  | .invalidArgument => 1#2
  | .ioError => 2#2
  | .unsupported => 3#2

/-- The 8-bit value a fault writes into FAULT (60_exceptions R203). -/
def FaultCode.code : FaultCode → Byte
  | .illegal => 0x01#8
  | .notReady => 0x02#8
  | .fbRange => 0x03#8
  | .unbound => 0x04#8

/-- The status of an operation whose only possible failure is a bus transaction: `IO_ERROR` if one failed, else `OK`
(41_protocol R106 to R108, 44_sequencer R160, R167). -/
def ioStatus (failed : Bool) : Status := if failed then .ioError else .ok

/-- A transaction failed: its end status is not 0 (60_exceptions R210). -/
def txFailed (t : TxAnswer) : Bool := t.status != 0

/-- RESULT of a PROBE: 1 if the device acknowledged (end status 0), else 0 (41_protocol R109). -/
def ackResult (t : TxAnswer) : BitVec 32 := if t.status = 0 then 1#32 else 0#32

end Sys2Proof.Machine
end

