-- ==== Sys2Proof/Machine/Ops.lean ====
section
/-!
DEFINITION. The named operations every meaning is built from: the framebuffer (20_memory R41), the trace
(10_state R31), ending an operation with a status, raising a fault (60_exceptions R203), and taking the next
word from the operation port (10_state R21, 30_encoding R60).
-/

namespace Sys2Proof.Machine

/-- The canonical form of memory: addresses strictly rising. -/
abbrev Memory.wf (m : Memory) : Prop := m.Pairwise (fun c d => c.1 < d.1)

/-- Every listed address exists in a framebuffer of `n` bytes (20_memory R40). -/
abbrev Memory.within (m : Memory) (n : Nat) : Prop := ∀ c ∈ m, c.1 < n

/-- What is known of the byte at an address: `none` where nothing is listed. -/
def Memory.lookup : Memory → Nat → Option Byte
  | [], _ => none
  | (b, v) :: m, a => if a = b then some v else Memory.lookup m a

/-- `MemRead(a, 1)` (20_memory R41). An address that is not listed holds the host's byte: a free value
(10_state R29; log 3). -/
def Memory.read (m : Memory) (a : Nat) : Byte := (m.lookup a).getD (Config.hostByte a)

/-- `MemWrite(a, 1, v)` (20_memory R41), keeping the addresses in order. -/
def Memory.write : Memory → Nat → Byte → Memory
  | [], a, v => [(a, v)]
  | (b, w) :: m, a, v =>
    if a < b then (a, v) :: (b, w) :: m
    else if a = b then (a, v) :: m
    else (b, w) :: Memory.write m a v

/-- `MemWrite(i, 1, 0)` for every `i` in `0 .. n - 1`, in increasing order (43_framebuffer R144). -/
def Memory.clearUpTo (m : Memory) : Nat → Memory
  | 0 => m
  | n + 1 => (m.clearUpTo n).write n 0#8

/-- The bytes `off .. off + len - 1`, in increasing order (41_protocol R103). -/
def Memory.slice (m : Memory) (off len : Nat) : List Byte := (List.range' off len).map m.read

/-- `emit`: append events to TRACE (00_scope R12, 10_state R31). -/
def State.emit (s : State) (es : List Event) : State := { s with trace := s.trace ++ es }

/-- `finish(st)`: the operation completes; STATUS is written and the position moves on by 1
(00_scope R12, 10_state R21, R26). -/
def finish (st : Status) (s : State) : Result := .next { s with status := st, pos := s.pos + 1 }

/-- `raise Fault(code)`: FAULT is written and nothing else changes, neither STATUS nor the position
(60_exceptions R203, 10_state R21). What the block does afterwards is `step`'s: it stops (log 6). -/
def raise (c : FaultCode) (s : State) : Result := .next { s with fault := c.code }

/-- The block is stopped by a fault (10_state R28, 60_exceptions R203). -/
def State.isStopped (s : State) : Bool := s.fault != 0#8

/-- The word the host presents next, if it presents one (10_state R21). -/
def State.nextWord (s : State) : Option OpWord := s.program[s.pos]?

/-- With no word presented the block waits, and nothing changes (70_reset_and_hazards R230; log 7). -/
def await (s : State) : Result := .next s

/-- The host's words with `w` placed at the next position (log 7). -/
def placeWord (program : List OpWord) (pos : Nat) (w : OpWord) : List OpWord :=
  (program ++ List.replicate (pos - program.length) 0#64).take pos ++ w :: program.drop (pos + 1)

end Sys2Proof.Machine
end

