-- ==== Sys2Proof/Machine/Operands.lean ====
section
/-!
DEFINITION. Operand forms: signed coordinates and the COLOR operand (30_encoding R66), the legal device addresses
(00_scope R10), the coordinate-rotation transform (42_transform R120), and the place of a panel pixel in the
framebuffer (20_memory R42) with its read and write (43_framebuffer R140, R146).
-/

namespace Sys2Proof.Machine

/-- `sint16(f)`: a 16-bit field as a two's complement number (00_scope R11). -/
def sint16 (f : Half) : Int := if f.getLsbD 15 then (f.toNat : Int) - 65536 else f.toNat

/-- `on = (COLOR != 0)` (30_encoding R66). -/
def colorOn (color : Half) : Bool := color != 0#16

/-- The four legal device addresses (00_scope R10), on the whole 8-bit operand (30_encoding R66). -/
def addrLegal (a : Byte) : Bool := a == 0x3C#8 || a == 0x3D#8 || a == 0x3E#8 || a == 0x3F#8

/-- `a[6:0]` (44_sequencer R160). -/
def addrBits (a : Byte) : BusAddr := a.extractLsb' 0 7

/-- A panel coordinate: a column and a row in panel memory (00_scope R14). -/
structure PanelPos where
  xp : Nat
  yp : Nat
  deriving DecidableEq, Repr

/-- `Resolve(x, y, r)` (42_transform R120): the bound check on the logical axes of the rotation, then the mapping;
`none` is ERR. -/
def resolvePanel (g : Geometry) (x y : Int) (r : Byte) : Option PanelPos :=
  if r = 0#8 then
    if 0 ≤ x ∧ x < g.aw ∧ 0 ≤ y ∧ y < g.ah then some ⟨x.toNat, y.toNat⟩ else none
  else if r = 1#8 then
    if 0 ≤ x ∧ x < g.ah ∧ 0 ≤ y ∧ y < g.aw then some ⟨(g.aw - y - 1).toNat, x.toNat⟩ else none
  else if r = 2#8 then
    if 0 ≤ x ∧ x < g.aw ∧ 0 ≤ y ∧ y < g.ah then some ⟨(g.aw - x - 1).toNat, (g.ah - y - 1).toNat⟩ else none
  else if r = 3#8 then
    if 0 ≤ x ∧ x < g.ah ∧ 0 ≤ y ∧ y < g.aw then some ⟨y.toNat, (g.ah - x - 1).toNat⟩ else none
  else none

/-- `{zext_16(xp), zext_16(yp)}`: RESULT of a RESOLVE (10_state R27). -/
def PanelPos.packed (p : PanelPos) : BitVec 32 := BitVec.ofNat 16 p.xp ++ BitVec.ofNat 16 p.yp

/-- The index of the byte that holds a panel pixel (20_memory R42). -/
def PanelPos.byteIndex (g : Geometry) (p : PanelPos) : Nat := p.xp + (p.yp / 8) * g.aw

/-- The bit of that byte, 0 the least significant (20_memory R42). -/
def PanelPos.bitIndex (p : PanelPos) : Nat := p.yp % 8

/-- The byte `v` with bit `k` set or cleared and no other bit changed (43_framebuffer R140). -/
def setBit (v : Byte) (k : Nat) (on : Bool) : Byte :=
  if on then v ||| (1#8 <<< k) else v &&& ~~~(1#8 <<< k)

/-- `FbWriteBit(xp, yp, on)`: read the byte, change one bit, write it back (43_framebuffer R140). -/
def fbWriteBit (p : PanelPos) (on : Bool) (s : State) : State :=
  let i := p.byteIndex s.cfg.geometry
  { s with fb := s.fb.write i (setBit (s.fb.read i) p.bitIndex on) }

/-- `FbReadBit(xp, yp)`, the observation of a pixel (43_framebuffer R146). -/
def fbReadBit (p : PanelPos) (s : State) : Bool :=
  (s.fb.read (p.byteIndex s.cfg.geometry)).getLsbD p.bitIndex

end Sys2Proof.Machine
end

