-- ==== Sys2Proof/Machine/Framebuffer.lean ====
section
/-!
DEFINITION. The framebuffer bit-packing engine's operations: PSET_RAW, CLEAR (43_framebuffer R142, R144, R147).
-/

namespace Sys2Proof.Machine

/-- PSET_RAW (43_framebuffer R142): X and Y are unsigned panel coordinates. -/
def execPsetRaw (color x y : Half) (s : State) : Result :=
  if s.ready = false then raise .notReady s
  else if s.mode ≠ .buffered then finish .unsupported s
  else if s.cfg.geometry.aw ≤ x.toNat ∨ s.cfg.geometry.ah ≤ y.toNat then raise .fbRange s
  else finish .ok (fbWriteBit ⟨x.toNat, y.toNat⟩ (colorOn color) s)

/-- CLEAR (43_framebuffer R144). -/
def execClear (s : State) : Result :=
  if s.ready = false then raise .notReady s
  else if s.mode ≠ .buffered then finish .unsupported s
  else finish .ok { s with fb := s.fb.clearUpTo s.cfg.geometry.fbLen }

end Sys2Proof.Machine
end

