-- ==== Sys2Proof/Machine/Framer.lean ====
section
/-!
DEFINITION. The protocol framer's primitives and the sequence primitives built on them (41_protocol R101 to R112,
44_sequencer R161, R162). Each is a function of the bus address and of the transport's answers to the
transactions to come; what it writes is the list of events it emits. `none` is the hang: the transport has no
answer for a transaction that was begun (41_protocol R105, 60_exceptions R210; log 4).
-/

namespace Sys2Proof.Machine

/-- What a primitive did: whether it failed, the events it emitted, and the answers it left. -/
structure Sent where
  failed : Bool
  events : List Event
  rest : List TxAnswer
  deriving DecidableEq, Repr

/-- `draw Accepted(req)`: the transport's count, cut to its domain `0 <= n <= len(req)` (60_exceptions R210; log 5). -/
def drawAccepted (n : Nat) (req : List Byte) : Nat := min n req.length

/-- The settle delay after a transaction whose end status is 0, and none after a failed one (41_protocol R102). -/
def settle (t : TxAnswer) : List Event := if t.status = 0 then [.delayUs Config.settleUs] else []

/-- The events of one transaction that sends `body` after the discriminator `d`, as one single-byte `write` and one
`write` of `body` (41_protocol R101, R103). -/
def txEvents (a : BusAddr) (d : Byte) (body : List Byte) (t : TxAnswer) : List Event :=
  [.txBegin a, .txWrite [d] (drawAccepted t.disc [d]), .txWrite body (drawAccepted t.payload body), .txEnd t.status]
    ++ settle t

/-- `FrameByte(d, b)` (41_protocol R101): the accepted counts are recorded and not examined (R112). -/
def frameByte (a : BusAddr) (d b : Byte) : List TxAnswer → Option Sent
  | [] => none
  | t :: rest => some ⟨txFailed t, txEvents a d [b] t, rest⟩

/-- The loop of `FrameRun` (41_protocol R103) with `left` bytes to send from index `i`: each transaction offers all of
them; the cursor moves by the accepted count; a failed transaction ends the run (R111). There is no progress
guard (R105): a transaction that accepts nothing is followed by another one. -/
def runLoop (a : BusAddr) (fb : Memory) : List TxAnswer → Nat → Nat → Option Sent
  | answers, _, 0 => some ⟨false, [], answers⟩
  | [], _, _ + 1 => none
  | t :: rest, i, left + 1 =>
    let req := fb.slice i (left + 1)
    let n := drawAccepted t.payload req
    if txFailed t then some ⟨true, txEvents a Config.discData req t, rest⟩
    else
      match runLoop a fb rest (i + n) (left + 1 - n) with
      | none => none
      | some r => some ⟨r.failed, txEvents a Config.discData req t ++ r.events, r.rest⟩

/-- `FrameRun(off, len)` (41_protocol R103). -/
def frameRun (a : BusAddr) (fb : Memory) (off len : Nat) (answers : List TxAnswer) : Option Sent :=
  runLoop a fb answers off len

/-- `FrameItem(item)` (41_protocol R110). -/
def frameItem (a : BusAddr) (item : ScriptItem) (answers : List TxAnswer) : Option Sent :=
  match item with
  | .cmd b => frameByte a Config.discCmd b answers
  | .data b => frameByte a Config.discData b answers
  | .wait t => some ⟨false, [.delayMs t], answers⟩

/-- `RunScript(items)` (44_sequencer R161), `err` the error accumulated so far. -/
def runScript (policy : ErrPolicy) (a : BusAddr) : List ScriptItem → Bool → List TxAnswer → Option Sent
  | [], err, answers => some ⟨err, [], answers⟩
  | item :: items, err, answers =>
    if policy = .failFast ∧ err = true then some ⟨err, [], answers⟩
    else
      match frameItem a item answers with
      | none => none
      | some r =>
        match runScript policy a items (err || r.failed) r.rest with
        | none => none
        | some r' => some ⟨r'.failed, r.events ++ r'.events, r'.rest⟩

/-- `ResetPulse()` (44_sequencer R162). -/
def resetPulse (pin : Nat) : List Event :=
  [.pinMode pin, .pinWrite pin .low, .delayMs Config.resetLowMs, .pinWrite pin .high, .delayMs Config.resetHighMs]

/-- The bus traffic of a FLUSH (44_sequencer R167): the prefix, then the whole framebuffer as one data run, which a
failed prefix skips under FAIL_FAST. -/
def flushTraffic (policy : ErrPolicy) (a : BusAddr) (items : List ScriptItem) (fb : Memory) (fbLen : Nat)
    (answers : List TxAnswer) : Option Sent :=
  match runScript policy a items false answers with
  | none => none
  | some r =>
    if policy = .failFast ∧ r.failed = true then some r
    else
      match frameRun a fb 0 fbLen r.rest with
      | none => none
      | some r' => some ⟨r.failed || r'.failed, r.events ++ r'.events, r'.rest⟩

/-- The state after a primitive: its events appended to TRACE, its answers consumed. -/
def Sent.applyTo (r : Sent) (s : State) : State := { s with trace := s.trace ++ r.events, answers := r.rest }

/-- End an operation whose outcome is its bus traffic's: the hang, or `finish(IO_ERROR)` or `finish(OK)`
(41_protocol R106 to R108, 44_sequencer R167). -/
def finishIo (r : Option Sent) (s : State) : Result :=
  match r with
  | none => .fault .transportHang
  | some r => finish (ioStatus r.failed) (r.applyTo s)

end Sys2Proof.Machine
end

