-- ==== Sys2Proof/Machine/Protocol.lean ====
section
/-!
DEFINITION. The protocol framer's operations: SEND_CMD, SEND_DATA, SEND_RUN, PROBE (41_protocol R106 to R109).
-/

namespace Sys2Proof.Machine

/-- SEND_CMD (41_protocol R106). -/
def execSendCmd (b : Byte) (s : State) : Result :=
  if s.mode = .uninit then raise .unbound s
  else finishIo (frameByte s.addr Config.discCmd b s.answers) s

/-- SEND_DATA (41_protocol R107). -/
def execSendData (b : Byte) (s : State) : Result :=
  if s.mode = .uninit then raise .unbound s
  else finishIo (frameByte s.addr Config.discData b s.answers) s

/-- SEND_RUN (41_protocol R108). -/
def execSendRun (off len : Field24) (s : State) : Result :=
  if s.mode = .uninit then raise .unbound s
  else if off.toNat + len.toNat > s.cfg.geometry.fbLen then raise .fbRange s
  else finishIo (frameRun s.addr s.fb off.toNat len.toNat s.answers) s

/-- PROBE (41_protocol R109): no settle delay, and never an error. -/
def execProbe (s : State) : Result :=
  if s.mode = .uninit then finish .ok { s with result := 0#32 }
  else
    match s.answers with
    | [] => .fault .transportHang
    | t :: rest =>
      finish .ok
        { s with
          result := ackResult t, trace := s.trace ++ [.txBegin s.addr, .txEnd t.status], answers := rest }

end Sys2Proof.Machine
end

