-- ==== Sys2Proof/Machine/Sequencer.lean ====
section
/-!
DEFINITION. The sequencer's operations: SETUP, PIXEL, FLUSH (44_sequencer R160, R164, R167).
-/

namespace Sys2Proof.Machine

/-- SETUP after its address check has passed: READY cleared, MODE and ADDR recorded, the reset pulse driven
(44_sequencer R160). -/
def setupBegin (a : Byte) (s : State) : State :=
  State.emit { s with ready := false, mode := .buffered, addr := addrBits a } (resetPulse s.cfg.resetPin)

/-- SETUP (44_sequencer R160). -/
def execSetup (a : Byte) (s : State) : Result :=
  if addrLegal a = false then finish .invalidArgument s
  else
    match runScript s.cfg.errPolicy (addrBits a) s.cfg.initScript false s.answers with
    | none => .fault .transportHang
    | some r =>
      let t := r.applyTo (setupBegin a s)
      if r.failed then finish .ioError t
      else finish .ok { t.emit [.delayMs Config.postInitMs] with ready := true }

/-- PIXEL (44_sequencer R164). -/
def execPixel (color x y : Half) (s : State) : Result :=
  if s.ready = false then raise .notReady s
  else if s.mode ≠ .buffered then finish .unsupported s
  else
    match resolvePanel s.cfg.geometry (sint16 x) (sint16 y) s.rot with
    | none => finish .invalidArgument s
    | some p => finish .ok (fbWriteBit p (colorOn color) s)

/-- FLUSH (44_sequencer R167). -/
def execFlush (s : State) : Result :=
  if s.ready = false then raise .notReady s
  else if s.mode ≠ .buffered then finish .unsupported s
  else
    finishIo
      (flushTraffic s.cfg.errPolicy s.addr (s.cfg.flushPrefix.map PrefixItem.toScript) s.fb s.cfg.geometry.fbLen
        s.answers) s

end Sys2Proof.Machine
end

