-- ==== Sys2Proof/Machine/Transform.lean ====
section
/-!
DEFINITION. The coordinate-rotation transform's operations: SET_ROTATION, RESOLVE (42_transform R125, R126).
-/

namespace Sys2Proof.Machine

/-- SET_ROTATION (42_transform R125). -/
def execSetRotation (b : Byte) (s : State) : Result := finish .ok { s with rot := b }

/-- RESOLVE (42_transform R126). -/
def execResolve (x y : Half) (s : State) : Result :=
  match resolvePanel s.cfg.geometry (sint16 x) (sint16 y) s.rot with
  | none => finish .invalidArgument s
  | some p => finish .ok { s with result := p.packed }

end Sys2Proof.Machine
end

