-- ==== Sys2Proof/Machine/Dispatch.lean ====
section
/-!
DEFINITION. One operation on one state: the rule of the decoded opcode (30_encoding R67, R71).
-/

namespace Sys2Proof.Machine

def exec (i : Instr) (s : State) : Host.Outcome State Fault Refusal :=
  match i with
  | .setup b => Sys2Proof.Machine.execSetup b s
  | .setRotation b => Sys2Proof.Machine.execSetRotation b s
  | .resolve x y => Sys2Proof.Machine.execResolve x y s
  | .pixel color x y => Sys2Proof.Machine.execPixel color x y s
  | .psetRaw color x y => Sys2Proof.Machine.execPsetRaw color x y s
  | .clear => Sys2Proof.Machine.execClear s
  | .flush => Sys2Proof.Machine.execFlush s
  | .sendCmd b => Sys2Proof.Machine.execSendCmd b s
  | .sendData b => Sys2Proof.Machine.execSendData b s
  | .sendRun off len => Sys2Proof.Machine.execSendRun off len s
  | .probe => Sys2Proof.Machine.execProbe s

end Sys2Proof.Machine
end

