-- ==== Sys2Proof/Machine/Step.lean ====
section
/-!
DEFINITION. One step of the block (30_encoding R71): take the word the host presents, decode it, run it.
-/

namespace Sys2Proof.Machine

/-- One step: a stopped block takes none (60_exceptions R203); with no word presented the block waits; an illegal word
raises F_ILLEGAL before any state changes (30_encoding R68, R69); a legal one runs to completion. -/
def step (s : State) : Host.Outcome State Fault Refusal :=
  if s.isStopped then .fault .stopped
  else
    match s.nextWord with
    | none => await s
    | some w =>
      match decode w with
      | .illegal _ => raise .illegal s
      | .legal i => exec i s

/-- `s` with a word, numbered as spec/opcode_table.json numbers it, presented as the next one (log 7). -/
def State.withFetchWord (s : State) (nbits w : Nat) : State :=
  { s with program := placeWord s.program s.pos (BitVec.ofNat 64 (w % 2 ^ nbits)) }

end Sys2Proof.Machine
end

