-- ==== Sys2Proof/Machine/Assembler.lean ====
section
/-!
DEFINITION. The assembler syntax and the pseudo-instructions (30_encoding R72, R73): a line of text to an `AsmLine`, a
pseudo-instruction to the operation it stands for, an `AsmLine` to its word. An operand that does not fit is an
error and produces no word.
-/

namespace Sys2Proof.Machine

/-- The expansion of a pseudo-instruction (30_encoding R73); an operation stands for itself. -/
def expandPseudo (g : Geometry) : AsmLine → AsmLine
  | .pixelOn x y => .pixel x y 1
  | .pixelOff x y => .pixel x y 0
  | .pset xp yp => .psetRaw xp yp 1
  | .pclr xp yp => .psetRaw xp yp 0
  | .sendFb => .sendRun 0 g.fbLen
  | .setup a => .setup a
  | .setRotation c => .setRotation c
  | .resolve x y => .resolve x y
  | .pixel x y c => .pixel x y c
  | .psetRaw xp yp c => .psetRaw xp yp c
  | .clear => .clear
  | .flush => .flush
  | .sendCmd b => .sendCmd b
  | .sendData b => .sendData b
  | .sendRun off len => .sendRun off len
  | .probe => .probe

/-- The operation of a line without pseudo-instructions, its operands as the fields of R66. -/
def lineInstr : AsmLine → Option Instr
  | .setup a => some (.setup (BitVec.ofInt 8 a))
  | .setRotation c => some (.setRotation (BitVec.ofInt 8 c))
  | .resolve x y => some (.resolve (BitVec.ofInt 16 x) (BitVec.ofInt 16 y))
  | .pixel x y color => some (.pixel (BitVec.ofInt 16 color) (BitVec.ofInt 16 x) (BitVec.ofInt 16 y))
  | .psetRaw xp yp color => some (.psetRaw (BitVec.ofInt 16 color) (BitVec.ofInt 16 xp) (BitVec.ofInt 16 yp))
  | .clear => some .clear
  | .flush => some .flush
  | .sendCmd b => some (.sendCmd (BitVec.ofInt 8 b))
  | .sendData b => some (.sendData (BitVec.ofInt 8 b))
  | .sendRun off len => some (.sendRun (BitVec.ofInt 24 off) (BitVec.ofInt 24 len))
  | .probe => some .probe
  | .pixelOn _ _ => none
  | .pixelOff _ _ => none
  | .pset _ _ => none
  | .pclr _ _ => none
  | .sendFb => none

/-- The word of a line; `none` is an assembly error (30_encoding R72). -/
def assemble (g : Geometry) (line : AsmLine) : Option OpWord :=
  if line.wf g then (lineInstr (expandPseudo g line)).map encode else none

/-- The value of a digit in base 10 or 16 (log 14). -/
def digitValue (base : Nat) (c : Char) : Option Nat :=
  let n := c.toNat
  if 48 ≤ n ∧ n ≤ 57 then some (n - 48)
  else if base = 16 ∧ 65 ≤ n ∧ n ≤ 70 then some (n - 55)
  else if base = 16 ∧ 97 ≤ n ∧ n ≤ 102 then some (n - 87)
  else none

/-- The digits of a number, most significant first, `acc` what has been read. -/
def readDigits (base : Nat) : List Char → Nat → Option Nat
  | [], acc => some acc
  | c :: cs, acc =>
    match digitValue base c with
    | none => none
    | some d => readDigits base cs (acc * base + d)

/-- A number: decimal or `0x` hex (30_encoding R72). -/
def readNat : List Char → Option Nat
  | '0' :: 'x' :: c :: cs => readDigits 16 (c :: cs) 0
  | c :: cs => readDigits 10 (c :: cs) 0
  | [] => none

/-- A number that may be negative (30_encoding R72). -/
def readInt : List Char → Option Int
  | '-' :: cs => (readNat cs).map (fun n => -(n : Int))
  | cs => (readNat cs).map (fun n => (n : Int))

/-- The blanks of a line: space and tab (log 14). -/
def isBlank (c : Char) : Bool := c == ' ' || c == '\t'

/-- A piece of text without the blanks around it. -/
def trimBlanks (cs : List Char) : List Char := ((cs.dropWhile isBlank).reverse.dropWhile isBlank).reverse

/-- The operands between commas, each read as a number; no text at all is no operand. -/
def readOperands (cs : List Char) : Option (List Int) :=
  if trimBlanks cs = [] then some []
  else ((cs.splitOn ',').map (fun piece => readInt (trimBlanks piece))).mapM id

/-- A mnemonic with its operands: the forms of 30_encoding R72 and R73. -/
def lineOf (mnemonic : String) (operands : List Int) : Option AsmLine :=
  match mnemonic, operands with
  | "SETUP", [a] => some (.setup a)
  | "SET_ROTATION", [c] => some (.setRotation c)
  | "RESOLVE", [x, y] => some (.resolve x y)
  | "PIXEL", [x, y, c] => some (.pixel x y c)
  | "PSET_RAW", [x, y, c] => some (.psetRaw x y c)
  | "CLEAR", [] => some .clear
  | "FLUSH", [] => some .flush
  | "SEND_CMD", [b] => some (.sendCmd b)
  | "SEND_DATA", [b] => some (.sendData b)
  | "SEND_RUN", [o, l] => some (.sendRun o l)
  | "PROBE", [] => some .probe
  | "PIXEL_ON", [x, y] => some (.pixelOn x y)
  | "PIXEL_OFF", [x, y] => some (.pixelOff x y)
  | "PSET", [x, y] => some (.pset x y)
  | "PCLR", [x, y] => some (.pclr x y)
  | "SEND_FB", [] => some .sendFb
  | _, _ => none

/-- A line of assembly text: mnemonic, then operands separated by commas (30_encoding R72). -/
def readLine (text : String) : Option AsmLine :=
  let cs := trimBlanks text.toList
  match readOperands (cs.dropWhile (fun c => !isBlank c)) with
  | none => none
  | some ops => lineOf (String.ofList (cs.takeWhile (fun c => !isBlank c))) ops

/-- A line of assembly text to its word (30_encoding R72, R73). -/
def assembleText (g : Geometry) (text : String) : Option OpWord :=
  match readLine text with
  | none => none
  | some line => assemble g line

end Sys2Proof.Machine
end

