-- ==== Sys2Proof/Machine/HostPort.lean ====
section
/-!
DEFINITION. The host's side of the block (60_exceptions R213, 20_memory R51, 10_state R20): reading the registers,
reading and writing the framebuffer between words, presenting words, the transport's answers, and power-on
reset (70_reset_and_hazards R230). None of these is a step of the block: they are what may happen to its state
between two steps (log 11).
-/

namespace Sys2Proof.Machine

/-- The seven named registers, the block's output ports (10_state R20). -/
inductive Reg where
  | mode
  | ready
  | addr
  | rot
  | status
  | result
  | fault
  deriving DecidableEq, Repr

/-- The width of a register (10_state R22 to R28). -/
def Reg.width : Reg → Nat
  | .mode => 2
  | .ready => 1
  | .addr => 7
  | .rot => 8
  | .status => 2
  | .result => 32
  | .fault => 8

/-- What the host reads from a register between two words (60_exceptions R213): its bits. -/
def State.readReg (s : State) : (r : Reg) → BitVec r.width
  | .mode => s.mode.code
  | .ready => BitVec.ofBool s.ready
  | .addr => s.addr
  | .rot => s.rot
  | .status => s.status.code
  | .result => s.result
  | .fault => s.fault

/-- The host reads a byte of FB between two words; an index outside FB has no byte (20_memory R51, R40). -/
def State.hostReadFb (s : State) (i : Nat) : Option Byte :=
  if i < s.cfg.geometry.fbLen then some (s.fb.read i) else none

/-- The host writes a byte of FB between two words; an index outside FB is no byte of the buffer (20_memory R51, R40). -/
def State.hostWriteFb (s : State) (i : Nat) (v : Byte) : State :=
  if i < s.cfg.geometry.fbLen then { s with fb := s.fb.write i v } else s

/-- The host presents further words after those it has presented (10_state R21, 60_exceptions R213 "issue"). -/
def State.present (s : State) (ws : List OpWord) : State := { s with program := s.program ++ ws }

/-- The transport's answers to the transactions to come (60_exceptions R213 "transport", log 4). -/
def State.supply (s : State) (ts : List TxAnswer) : State := { s with answers := s.answers ++ ts }

/-- Power-on reset of this block (70_reset_and_hazards R230): every register and TRACE as `State.reset` has them, FB the
host's contents, the configuration and the transport as they are, and no word presented yet (log 15). -/
def State.powerOnReset (s : State) : State :=
  { State.reset with cfg := s.cfg, fb := s.fb, answers := s.answers }

end Sys2Proof.Machine
end

