-- ==== Sys2Proof/Safety.lean ====
section
/-!
DEFINITION. What claims about the block are said in: its invariants, the legal shape of the event trace (30_encoding R74
to R77, 41_protocol R102, 44_sequencer R162), the bytes that reach the bus (10_state R31), the phases of
44_sequencer R170, and a finished run (60_exceptions R203).
-/

namespace Sys2Proof.Machine

/-- The four legal bus addresses as 7-bit values (00_scope R10). -/
abbrev legalBusAddr (a : BusAddr) : Prop := a = 0x3C#7 ∨ a = 0x3D#7 ∨ a = 0x3E#7 ∨ a = 0x3F#7

/-- The framebuffer memory is canonical and lists only bytes that exist (20_memory R40, R41). -/
abbrev MemoryOk (s : State) : Prop := s.fb.wf ∧ s.fb.within s.cfg.geometry.fbLen

/-- The lifecycle registers agree: MODE is UNINIT or BUFFERED (10_state R22), READY needs a bound block
(44_sequencer R170), and a bound block has a legal address (10_state R24). -/
abbrev LifecycleOk (s : State) : Prop :=
  (s.mode = .uninit ∨ s.mode = .buffered) ∧ (s.mode = .uninit → s.ready = false) ∧
    (s.mode ≠ .uninit → legalBusAddr s.addr)

/-- FAULT holds 0 or one of the four codes (10_state R28, 60_exceptions R203). -/
abbrev FaultOk (s : State) : Prop :=
  s.fault = 0#8 ∨ s.fault = 1#8 ∨ s.fault = 2#8 ∨ s.fault = 3#8 ∨ s.fault = 4#8

/-- The pieces a trace is made of: what one transaction, one wait or one reset pulse leaves in it. -/
inductive Segment where
  /-- A command transaction (30_encoding R74): accepted counts `n1`, `n2`, end status `s`. -/
  | cmd (a : BusAddr) (b : Byte) (n1 n2 s : Nat)
  /-- A single-byte data transaction (R75). -/
  | data (a : BusAddr) (b : Byte) (n1 n2 s : Nat)
  /-- One transaction of a data run that offers `req` (R75). -/
  | chunk (a : BusAddr) (req : List Byte) (n1 n2 s : Nat)
  /-- A probe (R77). -/
  | probe (a : BusAddr) (s : Nat)
  /-- A wait of the script, or the wait after it (R78, 44_sequencer R160). -/
  | wait (ms : Nat)
  /-- The reset pulse on a GPIO line (44_sequencer R162). -/
  | pulse (pin : Nat)
  deriving DecidableEq, Repr

/-- A whole transaction as the rules write it out: the settle delay follows if and only if the status is 0
(41_protocol R102). -/
def transaction (a : BusAddr) (disc : Byte) (body : List Byte) (n1 n2 s : Nat) : List Event :=
  .txBegin a :: .txWrite [disc] n1 :: .txWrite body n2 :: .txEnd s :: (if s = 0 then [.delayUs 27] else [])

/-- The events of a segment, in order. -/
def Segment.events : Segment → List Event
  | .cmd a b n1 n2 s => transaction a 0x00#8 [b] n1 n2 s
  | .data a b n1 n2 s => transaction a 0x40#8 [b] n1 n2 s
  | .chunk a req n1 n2 s => transaction a 0x40#8 req n1 n2 s
  | .probe a s => [.txBegin a, .txEnd s]
  | .wait ms => [.delayMs ms]
  | .pulse pin => [.pinMode pin, .pinWrite pin .low, .delayMs 2, .pinWrite pin .high, .delayMs 2]

/-- A segment is legal: a legal address, accepted counts within what was offered (60_exceptions R210), at least one byte
offered by a data run's transaction, and the pulse on the configured line. -/
def Segment.Legal (pin : Nat) : Segment → Prop
  | .cmd a _ n1 n2 _ => legalBusAddr a ∧ n1 ≤ 1 ∧ n2 ≤ 1
  | .data a _ n1 n2 _ => legalBusAddr a ∧ n1 ≤ 1 ∧ n2 ≤ 1
  | .chunk a req n1 n2 _ => legalBusAddr a ∧ n1 ≤ 1 ∧ n2 ≤ req.length ∧ req ≠ []
  | .probe a _ => legalBusAddr a
  | .wait _ => True
  | .pulse p => p = pin

/-- A trace is well framed: it is legal segments one after the other, and nothing else (30_encoding R76). -/
def WellFramed (pin : Nat) (tr : List Event) : Prop :=
  ∃ segs : List Segment, (∀ g ∈ segs, g.Legal pin) ∧ tr = segs.flatMap Segment.events

/-- The bytes that reached the bus: for each `Write`, the first `acc` bytes of what it offered (10_state R31). -/
def wireBytes : List Event → List Byte
  | [] => []
  | .txWrite req acc :: es => req.take acc ++ wireBytes es
  | _ :: es => wireBytes es

/-- The accepted bytes without the discriminators: of each pair of `Write` events, the second one's
(41_protocol R104). -/
def payloadBytes : List Event → List Byte
  | [] => []
  | .txWrite _ _ :: .txWrite req acc :: es => req.take acc ++ payloadBytes es
  | _ :: es => payloadBytes es

/-- How many transactions a list of events begins. -/
def transactionCount : List Event → Nat
  | [] => 0
  | .txBegin _ :: es => transactionCount es + 1
  | _ :: es => transactionCount es

/-- The phases of 44_sequencer R170. -/
inductive Phase where
  | unconfigured
  | configured
  | ready
  deriving DecidableEq, Repr

/-- The phase a state is in; `none` for a state that meets no phase's description. -/
def State.phase (s : State) : Option Phase :=
  if s.mode = .uninit ∧ s.ready = false then some .unconfigured
  else if s.mode = .buffered ∧ s.ready = false then some .configured
  else if s.mode = .buffered ∧ s.ready = true then some .ready
  else none

/-- A finished run: every word presented has been run and no fault stands (60_exceptions R203: "a faulted block is never
a finished run"). -/
def State.finished (s : State) : Prop := s.fault = 0#8 ∧ s.program.length ≤ s.pos

end Sys2Proof.Machine
end

