-- ==== Sys2Proof/Certificates/Slice0/Obligations.lean ====
section
/-!
DEFINITION. The statements for the provers. The definitions under `Claims` write out, from the spec's text and not from
the model's meanings, what the statements compare the model with.
-/

open Sys2Proof Sys2Proof.Machine

namespace Sys2Proof.Claims

/-- The (match, mask) pairs of spec/opcode_table.json. -/
def tableRows : List (OpWord × OpWord) :=
  [(0x0100000000000000#64, 0xFFFFFFFFFFFFFF00#64), (0x0200000000000000#64, 0xFFFFFFFFFFFFFF00#64),
   (0x0300000000000000#64, 0xFFFFFFFF00000000#64), (0x0400000000000000#64, 0xFFFF000000000000#64),
   (0x0500000000000000#64, 0xFFFF000000000000#64), (0x0600000000000000#64, 0xFFFFFFFFFFFFFFFF#64),
   (0x0700000000000000#64, 0xFFFFFFFFFFFFFFFF#64), (0x0800000000000000#64, 0xFFFFFFFFFFFFFF00#64),
   (0x0900000000000000#64, 0xFFFFFFFFFFFFFF00#64), (0x0A00000000000000#64, 0xFFFF000000000000#64),
   (0x0B00000000000000#64, 0xFFFFFFFFFFFFFFFF#64)]

/-- The opcode as a number, from the word as a number: `w[63:56]` (30_encoding R61). -/
def opcodeNumber (w : OpWord) : Nat := w.toNat / 2 ^ 56

/-- The bits marked 0 in the format of a defined opcode (30_encoding R62 to R65), as the fields they form: some bit of
the reserved range is set. -/
def reservedSet (w : OpWord) : Prop :=
  let n := w.toNat % 2 ^ 56
  if opcodeNumber w = 1 ∨ opcodeNumber w = 2 ∨ opcodeNumber w = 8 ∨ opcodeNumber w = 9 then n / 2 ^ 8 ≠ 0
  else if opcodeNumber w = 3 then n / 2 ^ 32 ≠ 0
  else if opcodeNumber w = 4 ∨ opcodeNumber w = 5 ∨ opcodeNumber w = 10 then n / 2 ^ 48 ≠ 0
  else n ≠ 0

/-- A field `w[hi:lo]` of the word as a number: bits `lo` and up, `n` of them (00_scope R11). -/
def fieldNumber (w : OpWord) (lo n : Nat) : Nat := w.toNat / 2 ^ lo % 2 ^ n

/-- The operation of a word whose opcode is defined, with the fields of its format, from the word as a number
(30_encoding R63 to R67). -/
def operationOf (w : OpWord) : Instr :=
  if opcodeNumber w = 1 then .setup (BitVec.ofNat 8 (fieldNumber w 0 8))
  else if opcodeNumber w = 2 then .setRotation (BitVec.ofNat 8 (fieldNumber w 0 8))
  else if opcodeNumber w = 3 then
    .resolve (BitVec.ofNat 16 (fieldNumber w 16 16)) (BitVec.ofNat 16 (fieldNumber w 0 16))
  else if opcodeNumber w = 4 then
    .pixel (BitVec.ofNat 16 (fieldNumber w 32 16)) (BitVec.ofNat 16 (fieldNumber w 16 16))
      (BitVec.ofNat 16 (fieldNumber w 0 16))
  else if opcodeNumber w = 5 then
    .psetRaw (BitVec.ofNat 16 (fieldNumber w 32 16)) (BitVec.ofNat 16 (fieldNumber w 16 16))
      (BitVec.ofNat 16 (fieldNumber w 0 16))
  else if opcodeNumber w = 6 then .clear
  else if opcodeNumber w = 7 then .flush
  else if opcodeNumber w = 8 then .sendCmd (BitVec.ofNat 8 (fieldNumber w 0 8))
  else if opcodeNumber w = 9 then .sendData (BitVec.ofNat 8 (fieldNumber w 0 8))
  else if opcodeNumber w = 10 then
    .sendRun (BitVec.ofNat 24 (fieldNumber w 24 24)) (BitVec.ofNat 24 (fieldNumber w 0 24))
  else .probe

/-- The block is running and the host presents `w` next. -/
def Presents (s : State) (w : OpWord) : Prop := s.fault = 0#8 ∧ s.program[s.pos]? = some w

/-- The logical canvas of a rotation (42_transform R121). -/
def inCanvas (g : Geometry) (x y : Int) (r : Byte) : Prop :=
  ((r = 0#8 ∨ r = 2#8) ∧ 0 ≤ x ∧ x < g.aw ∧ 0 ≤ y ∧ y < g.ah) ∨
  ((r = 1#8 ∨ r = 3#8) ∧ 0 ≤ x ∧ x < g.ah ∧ 0 ≤ y ∧ y < g.aw)

/-- The mapping of each rotation as the rule writes it, on integers (42_transform R120). -/
def rotated (g : Geometry) (x y : Int) (r : Byte) : Int × Int :=
  if r = 0#8 then (x, y)
  else if r = 1#8 then (g.aw - y - 1, x)
  else if r = 2#8 then (g.aw - x - 1, g.ah - y - 1)
  else (y, g.ah - x - 1)

/-- The inverse mapping of each rotation (42_transform R123). -/
def unrotated (g : Geometry) (xp yp : Int) (r : Byte) : Int × Int :=
  if r = 0#8 then (xp, yp)
  else if r = 1#8 then (yp, g.aw - xp - 1)
  else if r = 2#8 then (g.aw - xp - 1, g.ah - yp - 1)
  else (g.ah - yp - 1, xp)

/-- The pixel at `p` holds `on` in memory `m`, and every other bit of every byte is as in `m0`. -/
def OneBitWritten (g : Geometry) (p : PanelPos) (on : Bool) (m0 m : Memory) : Prop :=
  (m.read (p.xp + p.yp / 8 * g.aw)).getLsbD (p.yp % 8) = on ∧
  (∀ j, j ≠ p.yp % 8 →
    (m.read (p.xp + p.yp / 8 * g.aw)).getLsbD j = (m0.read (p.xp + p.yp / 8 * g.aw)).getLsbD j) ∧
  (∀ a, a ≠ p.xp + p.yp / 8 * g.aw → m.read a = m0.read a)

/-- How many transactions a list of script items is framed as (41_protocol R110). -/
def busItems : List ScriptItem → Nat
  | [] => 0
  | .wait _ :: items => busItems items
  | .cmd _ :: items => busItems items + 1
  | .data _ :: items => busItems items + 1

/-- The events of a list of script items when each transaction gets the next answer (44_sequencer R161,
41_protocol R101, R110): every item is framed, whatever the answers are. -/
def scriptEvents (a : BusAddr) : List ScriptItem → List TxAnswer → List Event
  | [], _ => []
  | .wait ms :: items, ts => .delayMs ms :: scriptEvents a items ts
  | .cmd b :: items, t :: ts =>
    transaction a 0x00#8 [b] (min t.disc 1) (min t.payload 1) t.status ++ scriptEvents a items ts
  | .data b :: items, t :: ts =>
    transaction a 0x40#8 [b] (min t.disc 1) (min t.payload 1) t.status ++ scriptEvents a items ts
  | .cmd _ :: _, [] => []
  | .data _ :: _, [] => []

/-- The first `n` answers there are, all with end status 0. -/
def AllSucceed (ts : List TxAnswer) (n : Nat) : Prop := n ≤ ts.length ∧ ∀ t ∈ ts.take n, t.status = 0

/-- The first `n` answers there are, all with end status 0 and accepting at least one byte of a run
(41_protocol R105: the progress premise). -/
def AllProgress (ts : List TxAnswer) (n : Nat) : Prop :=
  n ≤ ts.length ∧ ∀ t ∈ ts.take n, t.status = 0 ∧ 1 ≤ t.payload

/-- The reset pulse of 44_sequencer R162, written out. -/
def pulseEvents (pin : Nat) : List Event :=
  [.pinMode pin, .pinWrite pin .low, .delayMs 2, .pinWrite pin .high, .delayMs 2]

/-- The bytes a prefix puts on the wire when every byte is accepted (30_encoding R74, R75). -/
def prefixWire : List PrefixItem → List Byte
  | [] => []
  | .cmd b :: items => 0x00#8 :: b :: prefixWire items
  | .data b :: items => 0x40#8 :: b :: prefixWire items

/-- One row of the table of 10_state R34: which state the operation may write (STATUS is written by all). -/
structure Columns where
  modeReadyAddr : Bool
  rot : Bool
  result : Bool
  fb : Bool
  trace : Bool
  /-- The row says "on OK" for RESULT or FB. -/
  onOk : Bool

/-- The table of 10_state R34. -/
def columns : Instr → Columns
  | .setup _ => ⟨true, false, false, false, true, false⟩
  | .setRotation _ => ⟨false, true, false, false, false, false⟩
  | .resolve _ _ => ⟨false, false, true, false, false, true⟩
  | .pixel _ _ _ => ⟨false, false, false, true, false, true⟩
  | .psetRaw _ _ _ => ⟨false, false, false, true, false, false⟩
  | .clear => ⟨false, false, false, true, false, false⟩
  | .flush => ⟨false, false, false, false, true, false⟩
  | .sendCmd _ => ⟨false, false, false, false, true, false⟩
  | .sendData _ => ⟨false, false, false, false, true, false⟩
  | .sendRun _ _ => ⟨false, false, false, false, true, false⟩
  | .probe => ⟨false, false, true, false, true, false⟩

/-- The fault an operation raises, if it raises one: the table of 60_exceptions R203 with the order of R205. -/
def faultCause (i : Instr) (s : State) : Option Byte :=
  match i with
  | .pixel _ _ _ => if s.ready = false then some 2#8 else none
  | .psetRaw _ x y =>
    if s.ready = false then some 2#8
    else if s.mode = .buffered ∧ (s.cfg.geometry.aw ≤ x.toNat ∨ s.cfg.geometry.ah ≤ y.toNat) then some 3#8
    else none
  | .clear => if s.ready = false then some 2#8 else none
  | .flush => if s.ready = false then some 2#8 else none
  | .sendCmd _ => if s.mode = .uninit then some 4#8 else none
  | .sendData _ => if s.mode = .uninit then some 4#8 else none
  | .sendRun off len =>
    if s.mode = .uninit then some 4#8
    else if s.cfg.geometry.fbLen < off.toNat + len.toNat then some 3#8
    else none
  | .setup _ => none
  | .setRotation _ => none
  | .resolve _ _ => none
  | .probe => none

/-- The statuses an operation may report (60_exceptions R201: the cells that do not say "never"). -/
def mayReport : Instr → List Status
  | .setup _ => [.ok, .invalidArgument, .ioError]
  | .setRotation _ => [.ok]
  | .resolve _ _ => [.ok, .invalidArgument]
  | .pixel _ _ _ => [.ok, .invalidArgument, .unsupported]
  | .psetRaw _ _ _ => [.ok, .unsupported]
  | .clear => [.ok, .unsupported]
  | .flush => [.ok, .ioError, .unsupported]
  | .sendCmd _ => [.ok, .ioError]
  | .sendData _ => [.ok, .ioError]
  | .sendRun _ _ => [.ok, .ioError]
  | .probe => [.ok]

/-- The operation a well-formed line of assembly stands for, by the values of its fields (30_encoding R66, R72, R73). -/
def LineMeans (g : Geometry) (line : AsmLine) (i : Instr) : Prop :=
  match line with
  | .setup a => ∃ b, i = .setup b ∧ a = b.toNat
  | .setRotation c => ∃ b, i = .setRotation b ∧ c = b.toNat
  | .resolve x y => ∃ fx fy, i = .resolve fx fy ∧ x = fx.toInt ∧ y = fy.toInt
  | .pixel x y c => ∃ fc fx fy, i = .pixel fc fx fy ∧ x = fx.toInt ∧ y = fy.toInt ∧ c = fc.toNat
  | .psetRaw x y c => ∃ fc fx fy, i = .psetRaw fc fx fy ∧ x = fx.toNat ∧ y = fy.toNat ∧ c = fc.toNat
  | .clear => i = .clear
  | .flush => i = .flush
  | .sendCmd b => ∃ fb, i = .sendCmd fb ∧ b = fb.toNat
  | .sendData b => ∃ fb, i = .sendData fb ∧ b = fb.toNat
  | .sendRun off len => ∃ fo fl, i = .sendRun fo fl ∧ off = fo.toNat ∧ len = fl.toNat
  | .probe => i = .probe
  | .pixelOn x y => ∃ fx fy, i = .pixel 1#16 fx fy ∧ x = fx.toInt ∧ y = fy.toInt
  | .pixelOff x y => ∃ fx fy, i = .pixel 0#16 fx fy ∧ x = fx.toInt ∧ y = fy.toInt
  | .pset x y => ∃ fx fy, i = .psetRaw 1#16 fx fy ∧ x = fx.toNat ∧ y = fy.toNat
  | .pclr x y => ∃ fx fy, i = .psetRaw 0#16 fx fy ∧ x = fx.toNat ∧ y = fy.toNat
  | .sendFb => ∃ fl, i = .sendRun 0#24 fl ∧ fl.toNat = g.fbLen

end Sys2Proof.Claims

open Sys2Proof.Claims

/-! ## Encoding -/

/-- 30_encoding R61 to R67: the word of every operation, with every operand at every value, decodes to it. -/
def Obligations.DecodeEncodeRoundTrip : Prop := ∀ i : Instr, decode (encode i) = .legal i

/-- 30_encoding R70: no second encoding of any operation. -/
def Obligations.OneWordPerOperation : Prop :=
  ∀ (w : OpWord) (i : Instr), decode w = .legal i → encode i = w

/-- spec/opcode_table.json: a word is an operation exactly when it matches a row, and no word matches two. -/
def Obligations.LegalWordsAreTheTables : Prop :=
  (∀ w : OpWord, (∃ i, decode w = .legal i) ↔ ∃ row ∈ tableRows, w &&& row.2 = row.1) ∧
  tableRows.Pairwise (fun r q => ∀ w : OpWord, ¬ (w &&& r.2 = r.1 ∧ w &&& q.2 = q.1))

/-- 30_encoding R68: an illegal opcode faults with F_ILLEGAL before any state changes. -/
def Obligations.IllegalOpcodeFaults : Prop :=
  ∀ (s : State) (w : OpWord), Presents s w →
    (opcodeNumber w = 0 ∨ (0x0C ≤ opcodeNumber w ∧ opcodeNumber w ≤ 0xFF)) →
    step s = .next { s with fault := 0x01#8 }

/-- 30_encoding R69: a defined opcode with a reserved bit set faults with F_ILLEGAL before any state changes. -/
def Obligations.ReservedBitsFault : Prop :=
  ∀ (s : State) (w : OpWord), Presents s w →
    1 ≤ opcodeNumber w → opcodeNumber w ≤ 0x0B → reservedSet w →
    step s = .next { s with fault := 0x01#8 }

/-- 30_encoding R71, with the formats and the opcode map it names: the decoding procedure on every word, and the step around it. -/
def Obligations.DecodingFollowsTheProcedure : Prop :=
  (∀ w : OpWord,
    (opcodeNumber w < 1 ∨ 0x0B < opcodeNumber w → decode w = .illegal .opcode) ∧
    (1 ≤ opcodeNumber w → opcodeNumber w ≤ 0x0B → reservedSet w → decode w = .illegal .reservedBits) ∧
    (1 ≤ opcodeNumber w → opcodeNumber w ≤ 0x0B → ¬ reservedSet w → decode w = .legal (operationOf w))) ∧
  (∀ s : State, s.fault ≠ 0#8 → ∀ t, step s ≠ .next t) ∧
  (∀ (s : State) (w : OpWord), Presents s w →
    (∀ why, decode w = .illegal why → step s = .next { s with fault := 0x01#8 }) ∧
    (∀ i, decode w = .legal i → step s = exec i s))

/-- 30_encoding R79: each line of the table assembles to its word, and that word decodes to the operation the line
names. (R79: the spec's own derivation.) -/
def Obligations.EncodingExamplesDecode : Prop :=
  (∀ g : Geometry,
    assemble g (.setup 0x3C) = some 0x010000000000003C#64 ∧
    assemble g (.setRotation 1) = some 0x0200000000000001#64 ∧
    assemble g (.resolve (-1) 0) = some 0x03000000FFFF0000#64 ∧
    assemble g (.pixel 5 10 1) = some 0x040000010005000A#64 ∧
    assemble g (.psetRaw 0 6 0) = some 0x0500000000000006#64 ∧
    assemble g .clear = some 0x0600000000000000#64 ∧
    assemble g .flush = some 0x0700000000000000#64 ∧
    assemble g (.sendCmd 0xAF) = some 0x08000000000000AF#64 ∧
    assemble g (.sendData 0x55) = some 0x0900000000000055#64 ∧
    assemble g (.sendRun 128 100) = some 0x0A00000080000064#64 ∧
    assemble g .probe = some 0x0B00000000000000#64) ∧
  decode 0x010000000000003C#64 = .legal (.setup 0x3C#8) ∧
  decode 0x0200000000000001#64 = .legal (.setRotation 1#8) ∧
  decode 0x03000000FFFF0000#64 = .legal (.resolve (BitVec.ofInt 16 (-1)) 0#16) ∧
  decode 0x040000010005000A#64 = .legal (.pixel 1#16 5#16 10#16) ∧
  decode 0x0500000000000006#64 = .legal (.psetRaw 0#16 0#16 6#16) ∧
  decode 0x0600000000000000#64 = .legal .clear ∧
  decode 0x0700000000000000#64 = .legal .flush ∧
  decode 0x08000000000000AF#64 = .legal (.sendCmd 0xAF#8) ∧
  decode 0x0900000000000055#64 = .legal (.sendData 0x55#8) ∧
  decode 0x0A00000080000064#64 = .legal (.sendRun 128#24 100#24) ∧
  decode 0x0B00000000000000#64 = .legal .probe

/-- 30_encoding R72, R73: a line whose operands fit assembles to the word of the operation it stands for, and a line with an
operand that does not fit is an error. -/
def Obligations.AssembledLinesMeanTheirOperations : Prop :=
  ∀ (g : Geometry) (line : AsmLine),
    (line.wf g = true → ∃ w i, assemble g line = some w ∧ decode w = .legal i ∧ LineMeans g line i) ∧
    (line.wf g = false → assemble g line = none)

/-! ## The step -/

/-- 30_encoding R71: a running block whose presented word is an operation runs exactly that operation. -/
def Obligations.StepRunsDecodedOperation : Prop :=
  ∀ (s : State) (w : OpWord) (i : Instr), Presents s w → decode w = .legal i → step s = exec i s

/-- 60_exceptions R203: while FAULT is not 0 the block accepts no operation word. -/
def Obligations.StoppedBlockTakesNoStep : Prop := ∀ s : State, s.fault ≠ 0#8 → step s = .fault .stopped

/-- 70_reset_and_hazards R230 (model's choice of the form, log 7): with no word presented the block waits. -/
def Obligations.BlockWaitsForAWord : Prop :=
  ∀ s : State, s.fault = 0#8 → s.program.length ≤ s.pos → step s = .next s

/-- 10_state R21, R31, R32 over all operations: a step never writes the configuration or the host's words, only appends to
TRACE, consumes the transport's answers in order (model's field, log 4), and moves the position by exactly 1
unless the operation faults. -/
def Obligations.StepInterface : Prop :=
  ∀ (s t : State) (w : OpWord), Presents s w → step s = .next t →
    t.cfg = s.cfg ∧ t.program = s.program ∧ s.trace <+: t.trace ∧ t.answers <:+ s.answers ∧
    t.pos = (if t.fault = 0#8 then s.pos + 1 else s.pos)

/-- 10_state R34: the operations write no state outside their columns, and FAULT is written by an operation that
faults, with nothing else, and by no operation otherwise. (R34: the spec's own derivation.) -/
def Obligations.OperationsWriteOnlyTheirColumns : Prop :=
  ∀ (i : Instr) (s t : State), exec i s = .next t →
    ((columns i).modeReadyAddr = false → t.mode = s.mode ∧ t.ready = s.ready ∧ t.addr = s.addr) ∧
    ((columns i).rot = false → t.rot = s.rot) ∧
    ((columns i).result = false → t.result = s.result) ∧
    ((columns i).fb = false → ∀ a, t.fb.read a = s.fb.read a) ∧
    ((columns i).trace = false → t.trace = s.trace) ∧
    (i = .probe → s.mode = .uninit → t.trace = s.trace) ∧
    ((columns i).onOk = true → t.status ≠ .ok → t.result = s.result ∧ ∀ a, t.fb.read a = s.fb.read a) ∧
    (t.fault ≠ s.fault → t = { s with fault := t.fault })

/-- The frame of the operations, bus operations among them, on the rest of the state (10_state R32, R34; log 4, log
7): configuration and words never change, and an operation that emits nothing consumes no answer. (R34: the spec's own
derivation.) -/
def Obligations.OperationsKeepConfigurationAndWords : Prop :=
  ∀ (i : Instr) (s t : State), exec i s = .next t →
    t.cfg = s.cfg ∧ t.program = s.program ∧ s.trace <+: t.trace ∧ t.answers <:+ s.answers ∧
    ((columns i).trace = false → t.answers = s.answers)

/-- 43_framebuffer R140, R144, 44_sequencer R164: PIXEL and PSET_RAW change at most the one bit of the panel pixel they
address, CLEAR no byte outside FB. -/
def Obligations.FramebufferStoresStayInPlace : Prop :=
  (∀ (color x y : Half) (s t : State), exec (.pixel color x y) s = .next t →
    (resolvePanel s.cfg.geometry (sint16 x) (sint16 y) s.rot = none → ∀ a, t.fb.read a = s.fb.read a) ∧
    (∀ p, resolvePanel s.cfg.geometry (sint16 x) (sint16 y) s.rot = some p →
      (∀ a, a ≠ p.byteIndex s.cfg.geometry → t.fb.read a = s.fb.read a) ∧
      (∀ j, j ≠ p.bitIndex → (t.fb.read (p.byteIndex s.cfg.geometry)).getLsbD j =
        (s.fb.read (p.byteIndex s.cfg.geometry)).getLsbD j))) ∧
  (∀ (color x y : Half) (s t : State) (p : PanelPos), exec (.psetRaw color x y) s = .next t →
    p = ⟨x.toNat, y.toNat⟩ →
      (∀ a, a ≠ p.byteIndex s.cfg.geometry → t.fb.read a = s.fb.read a) ∧
      (∀ j, j ≠ p.bitIndex → (t.fb.read (p.byteIndex s.cfg.geometry)).getLsbD j =
        (s.fb.read (p.byteIndex s.cfg.geometry)).getLsbD j)) ∧
  (∀ (s t : State), exec .clear s = .next t → ∀ a, s.cfg.geometry.fbLen ≤ a → t.fb.read a = s.fb.read a)

/-- 60_exceptions R203, R205: an operation on a running block raises a fault exactly when the table says so, with the
table's code, and then nothing but FAULT changes. -/
def Obligations.FaultsAreExactlyTheTables : Prop :=
  ∀ (i : Instr) (s : State), s.fault = 0#8 →
    (∀ c, faultCause i s = some c → exec i s = .next { s with fault := c }) ∧
    (∀ t, faultCause i s = none → exec i s = .next t → t.fault = 0#8)

/-- 60_exceptions R201: an operation that completes reports one of the statuses the table gives it. (R201: the spec's
own derivation.) -/
def Obligations.StatusesAreTheTables : Prop :=
  ∀ (i : Instr) (s t : State), exec i s = .next t → faultCause i s = none → t.status ∈ mayReport i

/-! ## Invariants -/

/-- 20_memory R41 with the canonical form (log 3): every step keeps the framebuffer memory canonical and inside FB. -/
def Obligations.StepKeepsMemoryCanonical : Prop :=
  ∀ s t : State, MemoryOk s → step s = .next t → MemoryOk t

/-- 10_state R22, R24, 44_sequencer R170: every step keeps MODE at UNINIT or BUFFERED, READY only in a bound block,
and ADDR legal in a bound block. (R170: the spec's own derivation.) -/
def Obligations.StepKeepsLifecycle : Prop :=
  ∀ s t : State, LifecycleOk s → step s = .next t → LifecycleOk t

/-- 30_encoding R74 to R77, 41_protocol R102, 60_exceptions R210, R211: every step leaves TRACE a sequence of whole, legal
transactions, waits and reset pulses: one discriminator each, commands and data never mixed, a settle delay after
each successful transaction of the framer and none after a failed one. -/
def Obligations.StepKeepsTraceWellFramed : Prop :=
  ∀ s t : State, LifecycleOk s → WellFramed s.cfg.resetPin s.trace → step s = .next t →
    WellFramed t.cfg.resetPin t.trace

/-- 10_state R28, 60_exceptions R203: every step leaves FAULT at 0 or at one of the four codes. -/
def Obligations.StepKeepsFaultCode : Prop := ∀ s t : State, FaultOk s → step s = .next t → FaultOk t

/-- The state after reset meets the invariants. -/
def Obligations.ResetMeetsInvariants : Prop :=
  MemoryOk State.reset ∧ LifecycleOk State.reset ∧ FaultOk State.reset ∧
    WellFramed State.reset.cfg.resetPin State.reset.trace

/-- The invariants hold after any number of steps from any state that meets them. -/
def Obligations.RunsKeepInvariants : Prop :=
  ∀ (k : Nat) (s t : State),
    MemoryOk s → LifecycleOk s → FaultOk s → WellFramed s.cfg.resetPin s.trace →
    Sys2Proof.core.run k s = .next t →
    MemoryOk t ∧ LifecycleOk t ∧ FaultOk t ∧ WellFramed t.cfg.resetPin t.trace

/-- 20_memory R51, 60_exceptions R213, 70_reset_and_hazards R230 (the form of these moves is the model's, log 11, log 15): what the
host writes into FB between two words it reads back, at every other index FB is unchanged, and its moves and
power-on reset keep the invariants. -/
def Obligations.HostMovesKeepInvariants : Prop :=
  ∀ (s : State), MemoryOk s → LifecycleOk s →
    (∀ i v, MemoryOk (s.hostWriteFb i v) ∧ LifecycleOk (s.hostWriteFb i v) ∧
      (i < s.cfg.geometry.fbLen → (s.hostWriteFb i v).hostReadFb i = some v) ∧
      (∀ j, j ≠ i → (s.hostWriteFb i v).hostReadFb j = s.hostReadFb j)) ∧
    (∀ ws, MemoryOk (s.present ws) ∧ LifecycleOk (s.present ws)) ∧
    (MemoryOk s.powerOnReset ∧ LifecycleOk s.powerOnReset)

/-- 44_sequencer R170: the transitions of the lifecycle. (R170: the spec's own derivation.) -/
def Obligations.LifecycleTransitions : Prop :=
  ∀ (i : Instr) (s t : State), LifecycleOk s → exec i s = .next t →
    (∀ a, i = .setup a → (a = 0x3C#8 ∨ a = 0x3D#8 ∨ a = 0x3E#8 ∨ a = 0x3F#8) →
      (t.status = .ok ∧ t.phase = some .ready) ∨ (t.status = .ioError ∧ t.phase = some .configured)) ∧
    (∀ a, i = .setup a → ¬ (a = 0x3C#8 ∨ a = 0x3D#8 ∨ a = 0x3E#8 ∨ a = 0x3F#8) → t.phase = s.phase) ∧
    ((∀ a, i ≠ .setup a) → t.phase = s.phase) ∧
    s.phase ≠ none

/-! ## Reset -/

/-- 10_state R33, 70_reset_and_hazards R230: the values the spec states for reset. -/
def Obligations.ResetLeavesStatedValues : Prop :=
  State.reset.mode = .uninit ∧ State.reset.ready = false ∧ State.reset.rot = 0#8 ∧ State.reset.status = .ok ∧
    State.reset.result = 0#32 ∧ State.reset.fault = 0#8 ∧ State.reset.trace = [] ∧
    State.reset.cfg.errPolicy = .accumulate

/-- 70_reset_and_hazards R231: what works straight after reset, and which operations fault with which code. (R231: the
spec's own derivation.) -/
def Obligations.WhatWorksAfterReset : Prop :=
  ∀ s : State, s.mode = .uninit → s.ready = false → s.fault = 0#8 →
    (∀ a, busItems s.cfg.initScript ≤ s.answers.length → ∃ t, exec (.setup a) s = .next t ∧ t.fault = 0#8) ∧
    (∀ b, exec (.setRotation b) s = .next { s with rot := b, status := .ok, pos := s.pos + 1 }) ∧
    (∀ x y, ∃ t, exec (.resolve x y) s = .next t ∧ t.fault = 0#8) ∧
    exec .probe s = .next { s with result := 0#32, status := .ok, pos := s.pos + 1 } ∧
    (∀ b, exec (.sendCmd b) s = .next { s with fault := 0x04#8 }) ∧
    (∀ b, exec (.sendData b) s = .next { s with fault := 0x04#8 }) ∧
    (∀ off len, exec (.sendRun off len) s = .next { s with fault := 0x04#8 }) ∧
    (∀ c x y, exec (.pixel c x y) s = .next { s with fault := 0x02#8 }) ∧
    (∀ c x y, exec (.psetRaw c x y) s = .next { s with fault := 0x02#8 }) ∧
    exec .clear s = .next { s with fault := 0x02#8 } ∧
    exec .flush s = .next { s with fault := 0x02#8 }

/-! ## Transform -/

/-- 42_transform R122: every accepted coordinate maps into the active area. (R122: the spec's own derivation.) -/
def Obligations.ResolveStaysInActiveArea : Prop :=
  ∀ (g : Geometry) (x y : Int) (r : Byte), inCanvas g x y r →
    ∃ p, resolvePanel g x y r = some p ∧ p.xp < g.aw ∧ p.yp < g.ah

/-- 42_transform R123: each rotation is a bijection from its canvas onto the active area, with the inverse the rule
gives. (R123: the spec's own derivation.) -/
def Obligations.ResolveIsABijection : Prop :=
  ∀ (g : Geometry) (r : Byte), r.toNat < 4 →
    (∀ (p : PanelPos), p.xp < g.aw → p.yp < g.ah →
      inCanvas g (unrotated g p.xp p.yp r).1 (unrotated g p.xp p.yp r).2 r ∧
      resolvePanel g (unrotated g p.xp p.yp r).1 (unrotated g p.xp p.yp r).2 r = some p) ∧
    (∀ (x y : Int) (p : PanelPos), inCanvas g x y r → resolvePanel g x y r = some p →
      p.xp < g.aw ∧ p.yp < g.ah ∧ unrotated g p.xp p.yp r = (x, y))

/-- 42_transform R124: every coordinate outside the canvas, and every code of 4 or more, is rejected. (R124: the
spec's own derivation.) -/
def Obligations.ResolveRejectsTheRest : Prop :=
  ∀ (g : Geometry) (x y : Int) (r : Byte),
    (¬ inCanvas g x y r → resolvePanel g x y r = none) ∧ (4 ≤ r.toNat → resolvePanel g x y r = none)

/-- 42_transform R126: RESOLVE of a coordinate in the canvas writes the packed panel coordinate, and of any other one
leaves RESULT as it was. -/
def Obligations.ResolveReportsPanelCoordinate : Prop :=
  ∀ (s : State) (x y : Half),
    (inCanvas s.cfg.geometry x.toInt y.toInt s.rot →
      exec (.resolve x y) s = .next { s with
        result := BitVec.ofInt 32 ((rotated s.cfg.geometry x.toInt y.toInt s.rot).1 * 65536 +
          (rotated s.cfg.geometry x.toInt y.toInt s.rot).2)
        status := .ok, pos := s.pos + 1 }) ∧
    (¬ inCanvas s.cfg.geometry x.toInt y.toInt s.rot →
      exec (.resolve x y) s = .next { s with status := .invalidArgument, pos := s.pos + 1 })

/-- 42_transform R125: SET_ROTATION stores any code in any state; after a code of 4 or more, RESOLVE (always) and PIXEL (in a
ready block) give INVALID_ARGUMENT; reserved bits are F_ILLEGAL's. -/
def Obligations.SetRotationStoresTheCode : Prop :=
  (∀ (s : State) (b : Byte),
    exec (.setRotation b) s = .next { s with rot := b, status := .ok, pos := s.pos + 1 }) ∧
  (∀ (s : State), 4 ≤ s.rot.toNat →
    (∀ x y, exec (.resolve x y) s = .next { s with status := .invalidArgument, pos := s.pos + 1 }) ∧
    (s.ready = true → s.mode = .buffered → ∀ c x y,
      exec (.pixel c x y) s = .next { s with status := .invalidArgument, pos := s.pos + 1 })) ∧
  (∀ w : OpWord, opcodeNumber w = 2 → reservedSet w → decode w = .illegal .reservedBits)

/-! ## Framebuffer -/

/-- 20_memory R43: column and row to byte and bit is a bijection onto FB. (R43: the spec's own derivation.) -/
def Obligations.PixelMapIsABijection : Prop :=
  ∀ g : Geometry,
    (∀ p : PanelPos, p.xp < g.aw → p.yp < 8 * g.npages →
      p.byteIndex g < g.fbLen ∧ p.bitIndex < 8 ∧ p.byteIndex g % g.aw = p.xp ∧ p.byteIndex g / g.aw = p.yp / 8) ∧
    (∀ i k, i < g.fbLen → k < 8 → ∃ p : PanelPos, (p.xp < g.aw ∧ p.yp < 8 * g.npages ∧
      p.byteIndex g = i ∧ p.bitIndex = k) ∧
      ∀ q : PanelPos, q.xp < g.aw → q.yp < 8 * g.npages → q.byteIndex g = i → q.bitIndex = k → q = p)

/-- 43_framebuffer R141: a bit write leaves every other bit alone, twice is once, and writes of different pixels
commute. (R141: the spec's own derivation.) -/
def Obligations.BitWritesDoNotInterfere : Prop :=
  ∀ (s : State) (p : PanelPos) (on : Bool), p.xp < s.cfg.geometry.aw → p.yp < s.cfg.geometry.ah →
    (∀ q : PanelPos, q.xp < s.cfg.geometry.aw → q.yp < 8 * s.cfg.geometry.npages → q ≠ p →
      fbReadBit q (fbWriteBit p on s) = fbReadBit q s) ∧
    (∀ j, j ≠ p.bitIndex → ((fbWriteBit p on s).fb.read (p.byteIndex s.cfg.geometry)).getLsbD j =
      (s.fb.read (p.byteIndex s.cfg.geometry)).getLsbD j) ∧
    (∀ a, a ≠ p.byteIndex s.cfg.geometry → (fbWriteBit p on s).fb.read a = s.fb.read a) ∧
    fbWriteBit p on (fbWriteBit p on s) = fbWriteBit p on s ∧
    (∀ (q : PanelPos) (on' : Bool), q.xp < s.cfg.geometry.aw → q.yp < s.cfg.geometry.ah → q ≠ p →
      fbWriteBit p on (fbWriteBit q on' s) = fbWriteBit q on' (fbWriteBit p on s))

/-- 43_framebuffer R140, R143, R146: a bit write in the active area sets or clears the bit of its pixel and no other
bit, at a byte that exists, changes no register, and is read back as written. (The
read-back R143, and the bound `i < FB_LEN` inside R140, which rests on 00_scope R7: the spec's own derivations.) -/
def Obligations.BitWriteWritesItsBit : Prop :=
  ∀ (s : State) (p : PanelPos) (on : Bool), p.xp < s.cfg.geometry.aw → p.yp < s.cfg.geometry.ah →
    p.xp + p.yp / 8 * s.cfg.geometry.aw < s.cfg.geometry.fbLen ∧
    fbWriteBit p on s = { s with fb := (fbWriteBit p on s).fb } ∧
    OneBitWritten s.cfg.geometry p on s.fb (fbWriteBit p on s).fb ∧
    fbReadBit p (fbWriteBit p on s) = on

/-- 43_framebuffer R142: PSET_RAW in a ready block writes exactly the addressed bit, and outside the active area faults with
F_FB_RANGE, padding rows included. -/
def Obligations.PsetRawWritesOneBit : Prop :=
  ∀ (s : State) (color x y : Half), s.ready = true → s.mode = .buffered →
    (x.toNat < s.cfg.geometry.aw → y.toNat < s.cfg.geometry.ah →
      ∃ m, exec (.psetRaw color x y) s = .next { s with fb := m, status := .ok, pos := s.pos + 1 } ∧
        OneBitWritten s.cfg.geometry ⟨x.toNat, y.toNat⟩ (decide (color.toNat ≠ 0)) s.fb m) ∧
    ((s.cfg.geometry.aw ≤ x.toNat ∨ s.cfg.geometry.ah ≤ y.toNat) →
      exec (.psetRaw color x y) s = .next { s with fault := 0x03#8 })

/-- 44_sequencer R164: PIXEL in a ready block writes exactly the bit its logical coordinate maps to, and outside the canvas
gives INVALID_ARGUMENT with FB unchanged. -/
def Obligations.PixelWritesItsMappedBit : Prop :=
  ∀ (s : State) (color x y : Half), s.ready = true → s.mode = .buffered →
    (inCanvas s.cfg.geometry x.toInt y.toInt s.rot →
      ∃ m, exec (.pixel color x y) s = .next { s with fb := m, status := .ok, pos := s.pos + 1 } ∧
        OneBitWritten s.cfg.geometry
          ⟨(rotated s.cfg.geometry x.toInt y.toInt s.rot).1.toNat,
            (rotated s.cfg.geometry x.toInt y.toInt s.rot).2.toNat⟩ (decide (color.toNat ≠ 0)) s.fb m) ∧
    (¬ inCanvas s.cfg.geometry x.toInt y.toInt s.rot →
      exec (.pixel color x y) s = .next { s with status := .invalidArgument, pos := s.pos + 1 })

/-- 43_framebuffer R144, R145: CLEAR in a ready block completes with every byte of FB 0 and every pixel, padding rows
included, off. (R145: the spec's own derivation.) -/
def Obligations.ClearZeroesTheFramebuffer : Prop :=
  ∀ s : State, s.ready = true → s.mode = .buffered →
    ∃ t, exec .clear s = .next t ∧ t = { s with fb := t.fb, status := .ok, pos := s.pos + 1 } ∧
      (∀ i, i < s.cfg.geometry.fbLen → t.fb.read i = 0x00#8) ∧
      (∀ i, s.cfg.geometry.fbLen ≤ i → t.fb.read i = s.fb.read i) ∧
      (∀ p : PanelPos, p.xp < s.cfg.geometry.aw → p.yp < 8 * s.cfg.geometry.npages → fbReadBit p t = false) ∧
      t.cfg.geometry.fbLen = s.cfg.geometry.fbLen

/-- 20_memory R44: PSET_RAW and PIXEL never write a padding bit. (R44: the spec's own derivation.) -/
def Obligations.PaddingBitsAreNotDrawn : Prop :=
  ∀ (s t : State) (color x y : Half) (q : PanelPos),
    exec (.pixel color x y) s = .next t ∨ exec (.psetRaw color x y) s = .next t →
    q.xp < s.cfg.geometry.aw → s.cfg.geometry.ah ≤ q.yp → q.yp < 8 * s.cfg.geometry.npages →
    fbReadBit q t = fbReadBit q s

/-- 43_framebuffer R147 in a ready block: in the unreachable UNBUFFERED mode the four framebuffer operations finish with
UNSUPPORTED, change no FB byte and emit nothing. -/
def Obligations.UnbufferedModeIsUnsupported : Prop :=
  ∀ s : State, s.ready = true → s.mode = .unbuffered →
    (∀ c x y, exec (.pixel c x y) s = .next { s with status := .unsupported, pos := s.pos + 1 }) ∧
    (∀ c x y, exec (.psetRaw c x y) s = .next { s with status := .unsupported, pos := s.pos + 1 }) ∧
    exec .clear s = .next { s with status := .unsupported, pos := s.pos + 1 } ∧
    exec .flush s = .next { s with status := .unsupported, pos := s.pos + 1 }

/-! ## Framer -/

/-- 41_protocol R106: SEND_CMD sends its byte as one command transaction; unbound it faults. -/
def Obligations.SendCmdFramesACommand : Prop :=
  (∀ (s : State) (b : Byte), s.mode = .uninit → exec (.sendCmd b) s = .next { s with fault := 0x04#8 }) ∧
  (∀ (s : State) (b : Byte) (t : TxAnswer) (rest : List TxAnswer), s.mode ≠ .uninit → s.answers = t :: rest →
    exec (.sendCmd b) s = .next { s with
      trace := s.trace ++ transaction s.addr 0x00#8 [b] (min t.disc 1) (min t.payload 1) t.status
      answers := rest, status := if t.status = 0 then .ok else .ioError, pos := s.pos + 1 }) ∧
  (∀ w : OpWord, opcodeNumber w = 8 → reservedSet w → decode w = .illegal .reservedBits)

/-- 41_protocol R107: SEND_DATA sends its byte as one data transaction; unbound it faults. -/
def Obligations.SendDataFramesAByte : Prop :=
  (∀ (s : State) (b : Byte), s.mode = .uninit → exec (.sendData b) s = .next { s with fault := 0x04#8 }) ∧
  (∀ (s : State) (b : Byte) (t : TxAnswer) (rest : List TxAnswer), s.mode ≠ .uninit → s.answers = t :: rest →
    exec (.sendData b) s = .next { s with
      trace := s.trace ++ transaction s.addr 0x40#8 [b] (min t.disc 1) (min t.payload 1) t.status
      answers := rest, status := if t.status = 0 then .ok else .ioError, pos := s.pos + 1 }) ∧
  (∀ w : OpWord, opcodeNumber w = 9 → reservedSet w → decode w = .illegal .reservedBits)

/-- 41_protocol R109: PROBE never fails, needs no bound block, and follows with no delay. -/
def Obligations.ProbeReportsAcknowledge : Prop :=
  (∀ s : State, s.mode = .uninit →
    exec .probe s = .next { s with result := 0#32, status := .ok, pos := s.pos + 1 }) ∧
  (∀ (s : State) (t : TxAnswer) (rest : List TxAnswer), s.mode ≠ .uninit → s.answers = t :: rest →
    exec .probe s = .next { s with
      result := if t.status = 0 then 1#32 else 0#32
      trace := s.trace ++ [.txBegin s.addr, .txEnd t.status]
      answers := rest, status := .ok, pos := s.pos + 1 }) ∧
  (∀ w : OpWord, opcodeNumber w = 11 → reservedSet w → decode w = .illegal .reservedBits)

/-- 41_protocol R104: the properties of a data run, whatever the transport answers. (R104: the spec's own derivation.)
-/
def Obligations.DataRunProperties : Prop :=
  ∀ (a : BusAddr) (fb : Memory) (off len : Nat) (ts : List TxAnswer) (r : Sent),
    frameRun a fb off len ts = some r →
    (r.failed = false → payloadBytes r.events = fb.slice off len) ∧
    (∃ chunks : List (List Byte × Nat × Nat × Nat),
      r.events = chunks.flatMap (fun c => transaction a 0x40#8 c.1 c.2.1 c.2.2.1 c.2.2.2) ∧
      payloadBytes r.events = chunks.flatMap (fun c => c.1.take c.2.2.1) ∧
      (r.failed = false → (chunks.map (fun c => c.2.2.1)).sum = len) ∧
      ((∀ c ∈ chunks, c.2.1 = 1) → wireBytes r.events = chunks.flatMap (fun c => 0x40#8 :: c.1.take c.2.2.1)) ∧
      (∀ K, (∀ c ∈ chunks, c.2.2.1 ≤ K) → K < len → r.failed = false →
        2 ≤ chunks.length ∧ len ≤ K * chunks.length) ∧
      (r.failed = true → ∃ good last, chunks = good ++ [last] ∧ last.2.2.2 ≠ 0 ∧ (∀ c ∈ good, c.2.2.2 = 0) ∧
        good.flatMap (fun c => c.1.take c.2.2.1) <+: fb.slice off len))

/-- 41_protocol R108 with the progress premise of R105: SEND_RUN sends its slice of FB, in order, and completes with OK. -/
def Obligations.SendRunSendsItsSlice : Prop :=
  ∀ (s : State) (off len : Field24), s.mode ≠ .uninit → off.toNat + len.toNat ≤ s.cfg.geometry.fbLen →
    AllProgress s.answers len.toNat →
    ∃ es rest, exec (.sendRun off len) s = .next { s with
        trace := s.trace ++ es, answers := rest, status := .ok, pos := s.pos + 1 } ∧
      rest <:+ s.answers ∧ payloadBytes es = s.fb.slice off.toNat len.toNat

/-- 41_protocol R103, R108, R111: the first failing transaction ends a run, with IO_ERROR, nothing re-sent and nothing taken
back: the accepted bytes before it are the run's first ones, and the failing transaction offers the rest. -/
def Obligations.SendRunStopsAtFirstFailure : Prop :=
  ∀ (s : State) (off len : Field24) (good rest : List TxAnswer) (bad : TxAnswer), s.mode ≠ .uninit →
    off.toNat + len.toNat ≤ s.cfg.geometry.fbLen → s.answers = good ++ bad :: rest →
    (∀ t ∈ good, t.status = 0) → bad.status ≠ 0 → (good.map TxAnswer.payload).sum < len.toNat →
    ∃ es, exec (.sendRun off len) s = .next { s with
        trace := s.trace ++ es ++ transaction s.addr 0x40#8
          (s.fb.slice (off.toNat + (good.map TxAnswer.payload).sum)
            (len.toNat - (good.map TxAnswer.payload).sum))
          (min bad.disc 1) (min bad.payload (len.toNat - (good.map TxAnswer.payload).sum)) bad.status
        answers := rest, status := .ioError, pos := s.pos + 1 } ∧
      payloadBytes es = s.fb.slice off.toNat (good.map TxAnswer.payload).sum

/-- 41_protocol R108: an empty run emits nothing and gives OK, and a slice that leaves FB faults with F_FB_RANGE. -/
def Obligations.SendRunCorners : Prop :=
  ∀ (s : State) (off len : Field24), s.mode ≠ .uninit →
    (len.toNat = 0 → off.toNat ≤ s.cfg.geometry.fbLen →
      exec (.sendRun off len) s = .next { s with status := .ok, pos := s.pos + 1 }) ∧
    (s.cfg.geometry.fbLen < off.toNat + len.toNat →
      exec (.sendRun off len) s = .next { s with fault := 0x03#8 })

/-- 41_protocol R105 (the form of the hang is the model's, log 4): however many successful transactions the transport
answers, a run they do not complete hangs; a transport that accepts nothing for ever is the case of all counts 0. -/
def Obligations.SendRunWithoutProgressHangs : Prop :=
  ∀ (s : State) (off len : Field24), s.mode ≠ .uninit → off.toNat + len.toNat ≤ s.cfg.geometry.fbLen →
    (∀ t ∈ s.answers, t.status = 0) → (s.answers.map TxAnswer.payload).sum < len.toNat →
    exec (.sendRun off len) s = .fault .transportHang

/-! ## Sequencer -/

/-- 44_sequencer R160: an illegal address changes no state but STATUS and emits nothing. -/
def Obligations.SetupRejectsIllegalAddress : Prop :=
  ∀ (s : State) (a : Byte), ¬ (a = 0x3C#8 ∨ a = 0x3D#8 ∨ a = 0x3E#8 ∨ a = 0x3F#8) →
    exec (.setup a) s = .next { s with status := .invalidArgument, pos := s.pos + 1 }

/-- 44_sequencer R160 to R162: SETUP with a legal address and a transport that succeeds pulses the reset line, frames every item
of the script in order, waits 100 ms and becomes ready, from any state. -/
def Obligations.SetupSucceeds : Prop :=
  ∀ (s : State) (a : Byte), (a = 0x3C#8 ∨ a = 0x3D#8 ∨ a = 0x3E#8 ∨ a = 0x3F#8) →
    AllSucceed s.answers (busItems s.cfg.initScript) →
    exec (.setup a) s = .next { s with
      mode := .buffered, ready := true, addr := a.setWidth 7, status := .ok, pos := s.pos + 1
      trace := s.trace ++ pulseEvents s.cfg.resetPin ++
        scriptEvents (a.setWidth 7) s.cfg.initScript s.answers ++ [.delayMs 100]
      answers := s.answers.drop (busItems s.cfg.initScript) }

/-- 44_sequencer R160, R161 under ACCUMULATE: after a failure every further item is still framed, and SETUP then ends with
IO_ERROR, not ready, without the last wait, MODE and ADDR set. -/
def Obligations.SetupAccumulatesFailures : Prop :=
  ∀ (s : State) (a : Byte), (a = 0x3C#8 ∨ a = 0x3D#8 ∨ a = 0x3E#8 ∨ a = 0x3F#8) →
    s.cfg.errPolicy = .accumulate → busItems s.cfg.initScript ≤ s.answers.length →
    (∃ t ∈ s.answers.take (busItems s.cfg.initScript), t.status ≠ 0) →
    exec (.setup a) s = .next { s with
      mode := .buffered, ready := false, addr := a.setWidth 7, status := .ioError, pos := s.pos + 1
      trace := s.trace ++ pulseEvents s.cfg.resetPin ++ scriptEvents (a.setWidth 7) s.cfg.initScript s.answers
      answers := s.answers.drop (busItems s.cfg.initScript) }

/-- 44_sequencer R160, R161 under FAIL_FAST: the first failed item ends the script. -/
def Obligations.SetupFailsFast : Prop :=
  ∀ (s : State) (a : Byte) (before after : List ScriptItem) (item : ScriptItem),
    (a = 0x3C#8 ∨ a = 0x3D#8 ∨ a = 0x3E#8 ∨ a = 0x3F#8) → s.cfg.errPolicy = .failFast →
    s.cfg.initScript = before ++ item :: after → busItems [item] = 1 →
    AllSucceed s.answers (busItems before) →
    (∃ t, s.answers[busItems before]? = some t ∧ t.status ≠ 0) →
    exec (.setup a) s = .next { s with
      mode := .buffered, ready := false, addr := a.setWidth 7, status := .ioError, pos := s.pos + 1
      trace := s.trace ++ pulseEvents s.cfg.resetPin ++ scriptEvents (a.setWidth 7) (before ++ [item]) s.answers
      answers := s.answers.drop (busItems before + 1) }

/-- 44_sequencer R160 with 41_protocol R105, 60_exceptions R210 (the form of the hang is the model's, log 4): a transport that
stops answering before the script is framed hangs SETUP. -/
def Obligations.SetupWithoutAnswersHangs : Prop :=
  ∀ (s : State) (a : Byte), (a = 0x3C#8 ∨ a = 0x3D#8 ∨ a = 0x3E#8 ∨ a = 0x3F#8) →
    s.answers.length < busItems s.cfg.initScript → (∀ t ∈ s.answers, t.status = 0) →
    exec (.setup a) s = .fault .transportHang

/-- 44_sequencer R163, 70_reset_and_hazards R234: with a well-formed script, a SETUP that ends with OK has sent the
sleep-out command and waited at least 50 ms straight after it. (For a script with several sleep-out commands this is
said of one of them: the model's choice, log 16.) -/
def Obligations.SleepOutIsFollowedByItsWait : Prop :=
  ∀ (s t : State) (a : Byte), (a = 0x3C#8 ∨ a = 0x3D#8 ∨ a = 0x3E#8 ∨ a = 0x3F#8) →
    initScriptWf s.cfg.sleepOut s.cfg.initScript = true →
    exec (.setup a) s = .next t → t.status = .ok →
    ∃ before after n1 n2 ms, t.trace = s.trace ++ before ++
        transaction (a.setWidth 7) 0x00#8 [s.cfg.sleepOut] n1 n2 0 ++ .delayMs ms :: after ∧ 50 ≤ ms

/-- 44_sequencer R160, 70_reset_and_hazards R242: after a SETUP that ended with IO_ERROR the framebuffer operations
fault with F_NOT_READY, while the framer's still run. (R242: the spec's own derivation.) -/
def Obligations.FailedSetupBlocksDrawing : Prop :=
  ∀ (s t : State) (a : Byte), exec (.setup a) s = .next t → t.status = .ioError →
    (∀ c x y, exec (.pixel c x y) t = .next { t with fault := 0x02#8 }) ∧
    (∀ c x y, exec (.psetRaw c x y) t = .next { t with fault := 0x02#8 }) ∧
    exec .clear t = .next { t with fault := 0x02#8 } ∧
    exec .flush t = .next { t with fault := 0x02#8 } ∧
    t.mode = .buffered ∧ legalBusAddr t.addr

/-- 44_sequencer R167, R169: FLUSH in a ready block sends the prefix and then exactly the FB_LEN bytes of FB, first byte first. -/
def Obligations.FlushSendsTheFramebuffer : Prop :=
  ∀ (s : State) (n : Nat), s.ready = true → s.mode = .buffered →
    n = busItems (s.cfg.flushPrefix.map PrefixItem.toScript) → AllSucceed s.answers n →
    AllProgress (s.answers.drop n) s.cfg.geometry.fbLen →
    ∃ es rest, exec .flush s = .next { s with
        trace := s.trace ++ scriptEvents s.addr (s.cfg.flushPrefix.map PrefixItem.toScript) s.answers ++ es
        answers := rest, status := .ok, pos := s.pos + 1 } ∧
      rest <:+ s.answers ∧ payloadBytes es = s.fb.slice 0 s.cfg.geometry.fbLen ∧
      (payloadBytes es).length = s.cfg.geometry.fbLen

/-- 44_sequencer R167 under ACCUMULATE: a failed prefix command does not stop the data run, and FLUSH ends with IO_ERROR, still
ready. -/
def Obligations.FlushAccumulatesFailures : Prop :=
  ∀ (s : State) (n : Nat), s.ready = true → s.mode = .buffered → s.cfg.errPolicy = .accumulate →
    n = busItems (s.cfg.flushPrefix.map PrefixItem.toScript) → n ≤ s.answers.length →
    (∃ t ∈ s.answers.take n, t.status ≠ 0) → AllProgress (s.answers.drop n) s.cfg.geometry.fbLen →
    ∃ es rest, exec .flush s = .next { s with
        trace := s.trace ++ scriptEvents s.addr (s.cfg.flushPrefix.map PrefixItem.toScript) s.answers ++ es
        answers := rest, status := .ioError, pos := s.pos + 1 } ∧
      payloadBytes es = s.fb.slice 0 s.cfg.geometry.fbLen

/-- 44_sequencer R167 under FAIL_FAST: a failed prefix command ends the flush and the data run is skipped. -/
def Obligations.FlushFailsFast : Prop :=
  ∀ (s : State) (before after : List PrefixItem) (item : PrefixItem), s.ready = true → s.mode = .buffered →
    s.cfg.errPolicy = .failFast → s.cfg.flushPrefix = before ++ item :: after →
    AllSucceed s.answers before.length →
    (∃ t, s.answers[before.length]? = some t ∧ t.status ≠ 0) →
    exec .flush s = .next { s with
      trace := s.trace ++ scriptEvents s.addr ((before ++ [item]).map PrefixItem.toScript) s.answers
      answers := s.answers.drop (before.length + 1), status := .ioError, pos := s.pos + 1 }

/-- 44_sequencer R168: two FLUSH operations in a row that both end with OK send the same data bytes; with every byte
of the prefix accepted both times they send the same prefix bytes; and with the same answers both times the same
events. (R168: the spec's own derivation.) -/
def Obligations.FlushIsIdempotent : Prop :=
  ∀ s t u : State, s.ready = true → s.mode = .buffered → exec .flush s = .next t → t.status = .ok →
    exec .flush t = .next u → u.status = .ok →
    ∃ p1 d1 p2 d2, t.trace = s.trace ++ p1 ++ d1 ∧ u.trace = t.trace ++ p2 ++ d2 ∧
      payloadBytes d1 = s.fb.slice 0 s.cfg.geometry.fbLen ∧ payloadBytes d2 = payloadBytes d1 ∧
      ((∀ x ∈ s.answers.take s.cfg.flushPrefix.length, 1 ≤ x.disc ∧ 1 ≤ x.payload) →
        wireBytes p1 = prefixWire s.cfg.flushPrefix) ∧
      ((∀ x ∈ t.answers.take s.cfg.flushPrefix.length, 1 ≤ x.disc ∧ 1 ≤ x.payload) →
        wireBytes p2 = prefixWire s.cfg.flushPrefix) ∧
      (∀ used, s.answers = used ++ t.answers → t.answers = used ++ u.answers → p1 = p2 ∧ d1 = d2)
end

