-- ==== Sys2Proof/Laws/Decode.lean ====
section
/-!
SUPPORT. The fields of the four formats (30_encoding R62 to R66): each field read from a word of its format is the field it was
built from, and its reserved bits are clear.
-/

namespace Sys2Proof

theorem getLsbD_placed {n : Nat} (v : BitVec n) (lo i : Nat) :
    (placed v lo).getLsbD i = (decide (i < 64) && (decide (lo ≤ i) && v.getLsbD (i - lo))) := by
  by_cases h : i < 64
  · by_cases k : lo ≤ i
    · simp [placed, h, k, show ¬ i < lo by omega]
    · simp [placed, k, show i < lo by omega]
  · rw [BitVec.getLsbD_of_ge _ _ (by omega)]; simp [h]

/-- Reading a field back from where it was placed. -/
theorem extract_placed {n : Nat} (v : BitVec n) (lo : Nat) (h : lo + n ≤ 64) :
    (placed v lo).extractLsb' lo n = v := by
  ext i hi
  rw [BitVec.getElem_extractLsb', getLsbD_placed, ← BitVec.getLsbD_eq_getElem]
  simp [show lo + i < 64 by omega]

/-- Reading a field where another one was placed gives zero. -/
theorem extract_placed_apart {n : Nat} (v : BitVec n) (lo k m : Nat) (h : lo + n ≤ k ∨ k + m ≤ lo) :
    (placed v lo).extractLsb' k m = 0#m := by
  ext i hi
  simp only [BitVec.getElem_extractLsb', getLsbD_placed, BitVec.getElem_zero]
  rcases h with h | h
  · rw [BitVec.getLsbD_of_ge v _ (by omega)]; simp
  · rw [decide_eq_false (show ¬ lo ≤ k + i by omega)]; simp

theorem extract_or (a b : OpWord) (k m : Nat) :
    (a ||| b).extractLsb' k m = a.extractLsb' k m ||| b.extractLsb' k m := by
  ext i hi; simp

/-- Reserved bits: a placed field that lies outside a mask's bits. -/
theorem placed_and_mask {n : Nat} (v : BitVec n) (lo : Nat) (mask : OpWord)
    (h : ∀ i, i < n → mask.getLsbD (lo + i) = false) : placed v lo &&& mask = 0#64 := by
  ext i hi
  rw [← BitVec.getLsbD_eq_getElem, BitVec.getLsbD_and, getLsbD_placed, BitVec.getElem_zero]
  by_cases k : lo ≤ i
  · by_cases j : i - lo < n
    · have := h (i - lo) j
      rw [show lo + (i - lo) = i by omega] at this
      simp [this]
    · rw [BitVec.getLsbD_of_ge v _ (by omega)]; simp
  · simp [k]

theorem opcodeOf_formatN (opc : Byte) : opcodeOf (formatN opc) = opc := extract_placed opc 56 (by omega)

theorem opcodeOf_formatB (opc b : Byte) : opcodeOf (formatB opc b) = opc := by
  simp [opcodeOf, formatB, extract_or, extract_placed, extract_placed_apart]

theorem opcodeOf_formatP (opc : Byte) (c x y : Half) : opcodeOf (formatP opc c x y) = opc := by
  simp [opcodeOf, formatP, extract_or, extract_placed, extract_placed_apart]

theorem opcodeOf_formatR (opc : Byte) (o l : Field24) : opcodeOf (formatR opc o l) = opc := by
  simp [opcodeOf, formatR, extract_or, extract_placed, extract_placed_apart]

theorem fieldB_formatB (opc b : Byte) : fieldB (formatB opc b) = b := by
  simp [fieldB, formatB, extract_or, extract_placed, extract_placed_apart]

theorem fieldColor_formatP (opc : Byte) (c x y : Half) : fieldColor (formatP opc c x y) = c := by
  simp [fieldColor, formatP, extract_or, extract_placed, extract_placed_apart]

theorem fieldX_formatP (opc : Byte) (c x y : Half) : fieldX (formatP opc c x y) = x := by
  simp [fieldX, formatP, extract_or, extract_placed, extract_placed_apart]

theorem fieldY_formatP (opc : Byte) (c x y : Half) : fieldY (formatP opc c x y) = y := by
  simp [fieldY, formatP, extract_or, extract_placed, extract_placed_apart]

theorem fieldOff_formatR (opc : Byte) (o l : Field24) : fieldOff (formatR opc o l) = o := by
  simp [fieldOff, formatR, extract_or, extract_placed, extract_placed_apart]

theorem fieldLen_formatR (opc : Byte) (o l : Field24) : fieldLen (formatR opc o l) = l := by
  simp [fieldLen, formatR, extract_or, extract_placed, extract_placed_apart]

theorem formatN_reserved (opc : Byte) : formatN opc &&& maskN = 0#64 :=
  placed_and_mask opc 56 maskN (by decide)

theorem formatB_reserved (opc b : Byte) : formatB opc b &&& maskB = 0#64 := by
  unfold formatB
  rw [BitVec.and_or_distrib_right, placed_and_mask opc 56 maskB (by decide), placed_and_mask b 0 maskB (by decide)]
  rfl

theorem formatP_reserved (opc : Byte) (c x y : Half) : formatP opc c x y &&& maskP = 0#64 := by
  unfold formatP
  rw [BitVec.and_or_distrib_right, BitVec.and_or_distrib_right, BitVec.and_or_distrib_right,
    placed_and_mask opc 56 maskP (by decide), placed_and_mask c 32 maskP (by decide),
    placed_and_mask x 16 maskP (by decide), placed_and_mask y 0 maskP (by decide)]
  rfl

theorem formatP_reserved_noColor (opc : Byte) (x y : Half) :
    formatP opc 0#16 x y &&& maskPNoColor = 0#64 := by
  unfold formatP
  rw [BitVec.and_or_distrib_right, BitVec.and_or_distrib_right, BitVec.and_or_distrib_right,
    placed_and_mask opc 56 maskPNoColor (by decide), placed_and_mask x 16 maskPNoColor (by decide),
    placed_and_mask y 0 maskPNoColor (by decide)]
  decide

theorem formatR_reserved (opc : Byte) (o l : Field24) : formatR opc o l &&& maskR = 0#64 := by
  unfold formatR
  rw [BitVec.and_or_distrib_right, BitVec.and_or_distrib_right, placed_and_mask opc 56 maskR (by decide),
    placed_and_mask o 24 maskR (by decide), placed_and_mask l 0 maskR (by decide)]
  rfl

/-- `OPC` as a number (30_encoding R61). -/
theorem opcodeOf_toNat (w : OpWord) : (opcodeOf w).toNat = w.toNat / 2 ^ 56 := by
  have h : w.toNat < 2 ^ 64 := w.isLt
  simp only [opcodeOf, BitVec.extractLsb'_toNat, Nat.shiftRight_eq_div_pow]
  omega

end Sys2Proof
end

