-- ==== Sys2Proof/Laws/Memory.lean ====
section
/-!
SUPPORT. The laws of the framebuffer memory (20_memory R41): read after write, and that every operation on it keeps the
canonical form and the address range.
-/

namespace Sys2Proof.Machine

theorem Memory.lookup_write_same (m : Memory) (a : Nat) (v : Byte) : (m.write a v).lookup a = some v := by
  induction m with
  | nil => simp [Memory.write, Memory.lookup]
  | cons c m ih =>
    obtain ⟨b, w⟩ := c
    simp only [Memory.write]
    split
    · simp [Memory.lookup]
    · split
      · simp [Memory.lookup]
      · rename_i h; simp [Memory.lookup, h, ih]

theorem Memory.lookup_write_other (m : Memory) (a b : Nat) (v : Byte) (h : b ≠ a) :
    (m.write a v).lookup b = m.lookup b := by
  induction m with
  | nil => simp [Memory.write, Memory.lookup, h]
  | cons c m ih =>
    obtain ⟨d, w⟩ := c
    simp only [Memory.write]
    split
    · simp [Memory.lookup, h]
    · split
      · rename_i hd; subst hd; simp [Memory.lookup, h]
      · simp [Memory.lookup, ih]

@[simp] theorem Memory.read_write_same (m : Memory) (a : Nat) (v : Byte) : (m.write a v).read a = v := by
  simp [Memory.read, Memory.lookup_write_same]

theorem Memory.read_write_other (m : Memory) (a b : Nat) (v : Byte) (h : b ≠ a) :
    (m.write a v).read b = m.read b := by
  simp [Memory.read, Memory.lookup_write_other m a b v h]

/-- A cell of a written memory is the written one or one of before. -/
theorem Memory.mem_write (m : Memory) (a : Nat) (v : Byte) (c : Host.Cell) (h : c ∈ m.write a v) :
    c = (a, v) ∨ c ∈ m := by
  induction m with
  | nil => simpa [Memory.write] using h
  | cons d m ih =>
    obtain ⟨b, w⟩ := d
    simp only [Memory.write] at h
    split at h
    · simpa using h
    · split at h
      · rcases List.mem_cons.1 h with h | h <;> simp [h]
      · rcases List.mem_cons.1 h with h | h
        · simp [h]
        · rcases ih h with h | h <;> simp [h]

theorem Memory.write_wf (m : Memory) (a : Nat) (v : Byte) (h : m.wf) : (m.write a v).wf := by
  induction m with
  | nil => simp [Memory.write]
  | cons d m ih =>
    obtain ⟨b, w⟩ := d
    obtain ⟨hb, hm⟩ := List.pairwise_cons.1 h
    simp only [Memory.write]
    split
    · rename_i hab
      refine List.pairwise_cons.2 ⟨fun c hc => ?_, h⟩
      rcases List.mem_cons.1 hc with rfl | hc
      · exact hab
      · exact lt_trans hab (hb c hc)
    · split
      · rename_i hab; subst hab; exact List.pairwise_cons.2 ⟨hb, hm⟩
      · rename_i h1 h2
        refine List.pairwise_cons.2 ⟨fun c hc => ?_, ih hm⟩
        rcases Memory.mem_write m a v c hc with rfl | hc
        · show b < a; omega
        · exact hb c hc

theorem Memory.write_within (m : Memory) (n a : Nat) (v : Byte) (h : m.within n) (ha : a < n) :
    (m.write a v).within n := by
  intro c hc
  rcases Memory.mem_write m a v c hc with rfl | hc
  · exact ha
  · exact h c hc

theorem Memory.lookup_clearUpTo_below (m : Memory) (n a : Nat) (h : a < n) :
    (m.clearUpTo n).lookup a = some 0#8 := by
  induction n with
  | zero => omega
  | succ n ih =>
    by_cases e : a = n
    · subst e; exact Memory.lookup_write_same _ _ _
    · rw [Memory.clearUpTo, Memory.lookup_write_other _ _ _ _ e]; exact ih (by omega)

theorem Memory.lookup_clearUpTo_above (m : Memory) (n a : Nat) (h : n ≤ a) :
    (m.clearUpTo n).lookup a = m.lookup a := by
  induction n with
  | zero => rfl
  | succ n ih => rw [Memory.clearUpTo, Memory.lookup_write_other _ _ _ _ (by omega)]; exact ih (by omega)

theorem Memory.read_clearUpTo_below (m : Memory) (n a : Nat) (h : a < n) : (m.clearUpTo n).read a = 0#8 := by
  simp [Memory.read, Memory.lookup_clearUpTo_below m n a h]

theorem Memory.read_clearUpTo_above (m : Memory) (n a : Nat) (h : n ≤ a) :
    (m.clearUpTo n).read a = m.read a := by
  simp [Memory.read, Memory.lookup_clearUpTo_above m n a h]

theorem Memory.clearUpTo_wf (m : Memory) (n : Nat) (h : m.wf) : (m.clearUpTo n).wf := by
  induction n with
  | zero => exact h
  | succ n ih => exact Memory.write_wf _ _ _ ih

theorem Memory.clearUpTo_within (m : Memory) (k n : Nat) (h : m.within k) (hn : n ≤ k) :
    (m.clearUpTo n).within k := by
  induction n with
  | zero => exact h
  | succ n ih => exact Memory.write_within _ _ _ _ (ih (by omega)) (by omega)

@[simp] theorem Memory.slice_length (m : Memory) (off len : Nat) : (m.slice off len).length = len := by
  simp [Memory.slice]

@[simp] theorem Memory.slice_zero (m : Memory) (off : Nat) : m.slice off 0 = [] := rfl

/-- The cursor's law: a slice is its first `n` bytes and then the slice from the moved cursor (41_protocol R103). -/
theorem Memory.slice_split (m : Memory) (off len n : Nat) (h : n ≤ len) :
    m.slice off len = (m.slice off len).take n ++ m.slice (off + n) (len - n) := by
  obtain ⟨k, rfl⟩ := Nat.exists_eq_add_of_le h
  have e : m.slice off (n + k) = m.slice off n ++ m.slice (off + n) k := by
    have h := List.range'_append (s := off) (m := n) (n := k) (step := 1)
    rw [Nat.one_mul] at h
    rw [Memory.slice, ← h, List.map_append]; rfl
  rw [e, List.take_left' (by simp)]; simp

/-- A panel pixel of the active columns and the pages of the framebuffer has its byte inside it
(43_framebuffer R140). -/
theorem PanelPos.byteIndex_lt (g : Geometry) (p : PanelPos) (hx : p.xp < g.aw) (hy : p.yp < 8 * g.npages) :
    p.byteIndex g < g.fbLen := by
  have h1 : p.yp / 8 + 1 ≤ g.npages := by omega
  have h2 : (p.yp / 8 + 1) * g.aw ≤ g.npages * g.aw := Nat.mul_le_mul_right _ h1
  have h3 : (p.yp / 8 + 1) * g.aw = p.yp / 8 * g.aw + g.aw := by rw [Nat.add_mul, Nat.one_mul]
  have h4 : g.fbLen = g.npages * g.aw := Nat.mul_comm _ _
  unfold PanelPos.byteIndex
  omega

theorem Geometry.ah_le_rows (g : Geometry) : g.ah ≤ 8 * g.npages := by
  unfold Geometry.npages; omega

end Sys2Proof.Machine
end

