-- ==== Sys2Proof/Laws/Operands.lean ====
section
/-!
SUPPORT. What each operand form and the transform answer (30_encoding R66, 42_transform R120, 43_framebuffer R140): one
lemma per function, cited instead of unfolding it.
-/

namespace Sys2Proof.Machine

theorem sint16_eq_toInt (f : Half) : sint16 f = f.toInt := by
  unfold sint16
  rw [BitVec.toInt_eq_msb_cond, BitVec.msb_eq_getLsbD_last]
  rfl

theorem colorOn_eq (c : Half) : colorOn c = decide (c.toNat ≠ 0) := by
  have h : (c = 0#16) ↔ c.toNat = 0 := by rw [← BitVec.toNat_inj]; rfl
  by_cases e : c = 0#16 <;> simp [colorOn, e, ← h]

theorem addrLegal_iff (a : Byte) :
    addrLegal a = true ↔ a = 0x3C#8 ∨ a = 0x3D#8 ∨ a = 0x3E#8 ∨ a = 0x3F#8 := by
  simp [addrLegal, or_assoc]

theorem addrBits_eq (a : Byte) : addrBits a = a.setWidth 7 := by
  ext i hi; simp [addrBits]

/-- An address that passes SETUP's check is a legal bus address (10_state R24). -/
theorem legalBusAddr_addrBits (a : Byte) (h : addrLegal a = true) : legalBusAddr (addrBits a) := by
  rcases (addrLegal_iff a).1 h with rfl | rfl | rfl | rfl <;> decide

/-- One bit changes and no other (43_framebuffer R140). -/
theorem setBit_getLsbD (v : Byte) (k j : Nat) (on : Bool) (hk : k < 8) :
    (setBit v k on).getLsbD j = if j = k then on else v.getLsbD j := by
  by_cases hj : j < 8
  · cases on <;> by_cases e : j = k <;> simp [setBit, e, hk, hj]
    · omega
    · intro h; omega
  · rw [BitVec.getLsbD_of_ge _ _ (by omega), BitVec.getLsbD_of_ge _ _ (by omega), if_neg (by omega)]

end Sys2Proof.Machine
end

