-- ==== Sys2Proof/Laws/State.lean ====
section
/-!
SUPPORT. One lemma per field per update of the state, so that no later proof unfolds a record update, and what ending an
operation answers.
-/

namespace Sys2Proof.Machine

/-! `emit` (00_scope R12). -/

@[simp] theorem State.emit_cfg (s : State) (es : List Event) : (s.emit es).cfg = s.cfg := rfl
@[simp] theorem State.emit_mode (s : State) (es : List Event) : (s.emit es).mode = s.mode := rfl
@[simp] theorem State.emit_ready (s : State) (es : List Event) : (s.emit es).ready = s.ready := rfl
@[simp] theorem State.emit_addr (s : State) (es : List Event) : (s.emit es).addr = s.addr := rfl
@[simp] theorem State.emit_rot (s : State) (es : List Event) : (s.emit es).rot = s.rot := rfl
@[simp] theorem State.emit_status (s : State) (es : List Event) : (s.emit es).status = s.status := rfl
@[simp] theorem State.emit_result (s : State) (es : List Event) : (s.emit es).result = s.result := rfl
@[simp] theorem State.emit_fault (s : State) (es : List Event) : (s.emit es).fault = s.fault := rfl
@[simp] theorem State.emit_fb (s : State) (es : List Event) : (s.emit es).fb = s.fb := rfl
@[simp] theorem State.emit_trace (s : State) (es : List Event) : (s.emit es).trace = s.trace ++ es := rfl
@[simp] theorem State.emit_program (s : State) (es : List Event) : (s.emit es).program = s.program := rfl
@[simp] theorem State.emit_pos (s : State) (es : List Event) : (s.emit es).pos = s.pos := rfl
@[simp] theorem State.emit_answers (s : State) (es : List Event) : (s.emit es).answers = s.answers := rfl

/-! A primitive's result put into the state (41_protocol R101: it writes only TRACE). -/

@[simp] theorem Sent.applyTo_cfg (r : Sent) (s : State) : (r.applyTo s).cfg = s.cfg := rfl
@[simp] theorem Sent.applyTo_mode (r : Sent) (s : State) : (r.applyTo s).mode = s.mode := rfl
@[simp] theorem Sent.applyTo_ready (r : Sent) (s : State) : (r.applyTo s).ready = s.ready := rfl
@[simp] theorem Sent.applyTo_addr (r : Sent) (s : State) : (r.applyTo s).addr = s.addr := rfl
@[simp] theorem Sent.applyTo_rot (r : Sent) (s : State) : (r.applyTo s).rot = s.rot := rfl
@[simp] theorem Sent.applyTo_status (r : Sent) (s : State) : (r.applyTo s).status = s.status := rfl
@[simp] theorem Sent.applyTo_result (r : Sent) (s : State) : (r.applyTo s).result = s.result := rfl
@[simp] theorem Sent.applyTo_fault (r : Sent) (s : State) : (r.applyTo s).fault = s.fault := rfl
@[simp] theorem Sent.applyTo_fb (r : Sent) (s : State) : (r.applyTo s).fb = s.fb := rfl
@[simp] theorem Sent.applyTo_trace (r : Sent) (s : State) : (r.applyTo s).trace = s.trace ++ r.events := rfl
@[simp] theorem Sent.applyTo_program (r : Sent) (s : State) : (r.applyTo s).program = s.program := rfl
@[simp] theorem Sent.applyTo_pos (r : Sent) (s : State) : (r.applyTo s).pos = s.pos := rfl
@[simp] theorem Sent.applyTo_answers (r : Sent) (s : State) : (r.applyTo s).answers = r.rest := rfl

/-! `FbWriteBit` (43_framebuffer R140). -/

@[simp] theorem fbWriteBit_cfg (p : PanelPos) (on : Bool) (s : State) : (fbWriteBit p on s).cfg = s.cfg := rfl
@[simp] theorem fbWriteBit_mode (p : PanelPos) (on : Bool) (s : State) : (fbWriteBit p on s).mode = s.mode := rfl
@[simp] theorem fbWriteBit_ready (p : PanelPos) (on : Bool) (s : State) : (fbWriteBit p on s).ready = s.ready := rfl
@[simp] theorem fbWriteBit_addr (p : PanelPos) (on : Bool) (s : State) : (fbWriteBit p on s).addr = s.addr := rfl
@[simp] theorem fbWriteBit_rot (p : PanelPos) (on : Bool) (s : State) : (fbWriteBit p on s).rot = s.rot := rfl
@[simp] theorem fbWriteBit_status (p : PanelPos) (on : Bool) (s : State) : (fbWriteBit p on s).status = s.status := rfl
@[simp] theorem fbWriteBit_result (p : PanelPos) (on : Bool) (s : State) : (fbWriteBit p on s).result = s.result := rfl
@[simp] theorem fbWriteBit_fault (p : PanelPos) (on : Bool) (s : State) : (fbWriteBit p on s).fault = s.fault := rfl
@[simp] theorem fbWriteBit_fb (p : PanelPos) (on : Bool) (s : State) : (fbWriteBit p on s).fb = s.fb.write (p.byteIndex s.cfg.geometry)
      (setBit (s.fb.read (p.byteIndex s.cfg.geometry)) p.bitIndex on) := rfl
@[simp] theorem fbWriteBit_trace (p : PanelPos) (on : Bool) (s : State) : (fbWriteBit p on s).trace = s.trace := rfl
@[simp] theorem fbWriteBit_program (p : PanelPos) (on : Bool) (s : State) : (fbWriteBit p on s).program = s.program := rfl
@[simp] theorem fbWriteBit_pos (p : PanelPos) (on : Bool) (s : State) : (fbWriteBit p on s).pos = s.pos := rfl
@[simp] theorem fbWriteBit_answers (p : PanelPos) (on : Bool) (s : State) : (fbWriteBit p on s).answers = s.answers := rfl

/-! SETUP after its address check (44_sequencer R160). -/

@[simp] theorem setupBegin_cfg (a : Byte) (s : State) : (setupBegin a s).cfg = s.cfg := rfl
@[simp] theorem setupBegin_mode (a : Byte) (s : State) : (setupBegin a s).mode = .buffered := rfl
@[simp] theorem setupBegin_ready (a : Byte) (s : State) : (setupBegin a s).ready = false := rfl
@[simp] theorem setupBegin_addr (a : Byte) (s : State) : (setupBegin a s).addr = addrBits a := rfl
@[simp] theorem setupBegin_rot (a : Byte) (s : State) : (setupBegin a s).rot = s.rot := rfl
@[simp] theorem setupBegin_status (a : Byte) (s : State) : (setupBegin a s).status = s.status := rfl
@[simp] theorem setupBegin_result (a : Byte) (s : State) : (setupBegin a s).result = s.result := rfl
@[simp] theorem setupBegin_fault (a : Byte) (s : State) : (setupBegin a s).fault = s.fault := rfl
@[simp] theorem setupBegin_fb (a : Byte) (s : State) : (setupBegin a s).fb = s.fb := rfl
@[simp] theorem setupBegin_trace (a : Byte) (s : State) : (setupBegin a s).trace = s.trace ++ resetPulse s.cfg.resetPin := rfl
@[simp] theorem setupBegin_program (a : Byte) (s : State) : (setupBegin a s).program = s.program := rfl
@[simp] theorem setupBegin_pos (a : Byte) (s : State) : (setupBegin a s).pos = s.pos := rfl
@[simp] theorem setupBegin_answers (a : Byte) (s : State) : (setupBegin a s).answers = s.answers := rfl

/-! A word placed for the next step (log 7). -/

@[simp] theorem State.withFetchWord_cfg (s : State) (n w : Nat) : (s.withFetchWord n w).cfg = s.cfg := rfl
@[simp] theorem State.withFetchWord_mode (s : State) (n w : Nat) : (s.withFetchWord n w).mode = s.mode := rfl
@[simp] theorem State.withFetchWord_ready (s : State) (n w : Nat) : (s.withFetchWord n w).ready = s.ready := rfl
@[simp] theorem State.withFetchWord_addr (s : State) (n w : Nat) : (s.withFetchWord n w).addr = s.addr := rfl
@[simp] theorem State.withFetchWord_rot (s : State) (n w : Nat) : (s.withFetchWord n w).rot = s.rot := rfl
@[simp] theorem State.withFetchWord_status (s : State) (n w : Nat) : (s.withFetchWord n w).status = s.status := rfl
@[simp] theorem State.withFetchWord_result (s : State) (n w : Nat) : (s.withFetchWord n w).result = s.result := rfl
@[simp] theorem State.withFetchWord_fault (s : State) (n w : Nat) : (s.withFetchWord n w).fault = s.fault := rfl
@[simp] theorem State.withFetchWord_fb (s : State) (n w : Nat) : (s.withFetchWord n w).fb = s.fb := rfl
@[simp] theorem State.withFetchWord_trace (s : State) (n w : Nat) : (s.withFetchWord n w).trace = s.trace := rfl
@[simp] theorem State.withFetchWord_program (s : State) (n w : Nat) : (s.withFetchWord n w).program = placeWord s.program s.pos (BitVec.ofNat 64 (w % 2 ^ n)) := rfl
@[simp] theorem State.withFetchWord_pos (s : State) (n w : Nat) : (s.withFetchWord n w).pos = s.pos := rfl
@[simp] theorem State.withFetchWord_answers (s : State) (n w : Nat) : (s.withFetchWord n w).answers = s.answers := rfl

/-! The host presents words; the transport's answers are supplied (60_exceptions R213). -/

@[simp] theorem State.present_cfg (s : State) (ws : List OpWord) : (s.present ws).cfg = s.cfg := rfl
@[simp] theorem State.present_mode (s : State) (ws : List OpWord) : (s.present ws).mode = s.mode := rfl
@[simp] theorem State.present_ready (s : State) (ws : List OpWord) : (s.present ws).ready = s.ready := rfl
@[simp] theorem State.present_addr (s : State) (ws : List OpWord) : (s.present ws).addr = s.addr := rfl
@[simp] theorem State.present_rot (s : State) (ws : List OpWord) : (s.present ws).rot = s.rot := rfl
@[simp] theorem State.present_status (s : State) (ws : List OpWord) : (s.present ws).status = s.status := rfl
@[simp] theorem State.present_result (s : State) (ws : List OpWord) : (s.present ws).result = s.result := rfl
@[simp] theorem State.present_fault (s : State) (ws : List OpWord) : (s.present ws).fault = s.fault := rfl
@[simp] theorem State.present_fb (s : State) (ws : List OpWord) : (s.present ws).fb = s.fb := rfl
@[simp] theorem State.present_trace (s : State) (ws : List OpWord) : (s.present ws).trace = s.trace := rfl
@[simp] theorem State.present_program (s : State) (ws : List OpWord) : (s.present ws).program = s.program ++ ws := rfl
@[simp] theorem State.present_pos (s : State) (ws : List OpWord) : (s.present ws).pos = s.pos := rfl
@[simp] theorem State.present_answers (s : State) (ws : List OpWord) : (s.present ws).answers = s.answers := rfl

@[simp] theorem State.supply_cfg (s : State) (ts : List TxAnswer) : (s.supply ts).cfg = s.cfg := rfl
@[simp] theorem State.supply_mode (s : State) (ts : List TxAnswer) : (s.supply ts).mode = s.mode := rfl
@[simp] theorem State.supply_ready (s : State) (ts : List TxAnswer) : (s.supply ts).ready = s.ready := rfl
@[simp] theorem State.supply_addr (s : State) (ts : List TxAnswer) : (s.supply ts).addr = s.addr := rfl
@[simp] theorem State.supply_rot (s : State) (ts : List TxAnswer) : (s.supply ts).rot = s.rot := rfl
@[simp] theorem State.supply_status (s : State) (ts : List TxAnswer) : (s.supply ts).status = s.status := rfl
@[simp] theorem State.supply_result (s : State) (ts : List TxAnswer) : (s.supply ts).result = s.result := rfl
@[simp] theorem State.supply_fault (s : State) (ts : List TxAnswer) : (s.supply ts).fault = s.fault := rfl
@[simp] theorem State.supply_fb (s : State) (ts : List TxAnswer) : (s.supply ts).fb = s.fb := rfl
@[simp] theorem State.supply_trace (s : State) (ts : List TxAnswer) : (s.supply ts).trace = s.trace := rfl
@[simp] theorem State.supply_program (s : State) (ts : List TxAnswer) : (s.supply ts).program = s.program := rfl
@[simp] theorem State.supply_pos (s : State) (ts : List TxAnswer) : (s.supply ts).pos = s.pos := rfl
@[simp] theorem State.supply_answers (s : State) (ts : List TxAnswer) : (s.supply ts).answers = s.answers ++ ts := rfl

/-! Power-on reset (70_reset_and_hazards R230). -/

@[simp] theorem State.powerOnReset_cfg (s : State) : (s.powerOnReset).cfg = s.cfg := rfl
@[simp] theorem State.powerOnReset_mode (s : State) : (s.powerOnReset).mode = .uninit := rfl
@[simp] theorem State.powerOnReset_ready (s : State) : (s.powerOnReset).ready = false := rfl
@[simp] theorem State.powerOnReset_addr (s : State) : (s.powerOnReset).addr = 0#7 := rfl
@[simp] theorem State.powerOnReset_rot (s : State) : (s.powerOnReset).rot = 0#8 := rfl
@[simp] theorem State.powerOnReset_status (s : State) : (s.powerOnReset).status = .ok := rfl
@[simp] theorem State.powerOnReset_result (s : State) : (s.powerOnReset).result = 0#32 := rfl
@[simp] theorem State.powerOnReset_fault (s : State) : (s.powerOnReset).fault = 0#8 := rfl
@[simp] theorem State.powerOnReset_fb (s : State) : (s.powerOnReset).fb = s.fb := rfl
@[simp] theorem State.powerOnReset_trace (s : State) : (s.powerOnReset).trace = [] := rfl
@[simp] theorem State.powerOnReset_program (s : State) : (s.powerOnReset).program = [] := rfl
@[simp] theorem State.powerOnReset_pos (s : State) : (s.powerOnReset).pos = 0 := rfl
@[simp] theorem State.powerOnReset_answers (s : State) : (s.powerOnReset).answers = s.answers := rfl

/-! The state after reset (10_state R33). -/

@[simp] theorem State.reset_cfg : (State.reset).cfg = Config.params := rfl
@[simp] theorem State.reset_mode : (State.reset).mode = .uninit := rfl
@[simp] theorem State.reset_ready : (State.reset).ready = false := rfl
@[simp] theorem State.reset_addr : (State.reset).addr = 0#7 := rfl
@[simp] theorem State.reset_rot : (State.reset).rot = 0#8 := rfl
@[simp] theorem State.reset_status : (State.reset).status = .ok := rfl
@[simp] theorem State.reset_result : (State.reset).result = 0#32 := rfl
@[simp] theorem State.reset_fault : (State.reset).fault = 0#8 := rfl
@[simp] theorem State.reset_fb : (State.reset).fb = [] := rfl
@[simp] theorem State.reset_trace : (State.reset).trace = [] := rfl
@[simp] theorem State.reset_program : (State.reset).program = [] := rfl
@[simp] theorem State.reset_pos : (State.reset).pos = 0 := rfl
@[simp] theorem State.reset_answers : (State.reset).answers = Config.transport := rfl

/-! Ending an operation (10_state R21, R26, 60_exceptions R203). -/

@[simp] theorem finish_eq_next (st : Status) (s t : State) :
    finish st s = .next t ↔ t = { s with status := st, pos := s.pos + 1 } := by
  simp [finish, eq_comm]

@[simp] theorem finish_ne_fault (st : Status) (s : State) (f : Fault) : finish st s ≠ .fault f := by simp [finish]

@[simp] theorem raise_eq_next (c : FaultCode) (s t : State) :
    raise c s = .next t ↔ t = { s with fault := c.code } := by
  simp [raise, eq_comm]

@[simp] theorem raise_ne_fault (c : FaultCode) (s : State) (f : Fault) : raise c s ≠ .fault f := by simp [raise]

theorem FaultCode.code_ne_zero (c : FaultCode) : c.code ≠ 0#8 := by cases c <;> decide

@[simp] theorem isStopped_eq_true (s : State) : s.isStopped = true ↔ s.fault ≠ 0#8 := by simp [State.isStopped]

@[simp] theorem ioStatus_true : ioStatus true = .ioError := rfl

@[simp] theorem ioStatus_false : ioStatus false = .ok := rfl

@[simp] theorem txFailed_eq_true (t : TxAnswer) : txFailed t = true ↔ t.status ≠ 0 := by simp [txFailed]

@[simp] theorem txFailed_eq_false (t : TxAnswer) : txFailed t = false ↔ t.status = 0 := by simp [txFailed]

end Sys2Proof.Machine
end

