-- ==== Sys2Proof/Laws/Framer.lean ====
section
/-!
SUPPORT. Everything the framing primitives can do (41_protocol R101 to R112, 44_sequencer R161): one equation or inversion per
primitive, what it leaves of the answers, and what its events carry.
-/

namespace Sys2Proof.Machine

/-- The framer's transaction is the one the rules write out (41_protocol R101 to R103). -/
theorem txEvents_eq (a : BusAddr) (d : Byte) (body : List Byte) (t : TxAnswer) :
    txEvents a d body t = transaction a d body (min t.disc 1) (min t.payload body.length) t.status := by
  simp [txEvents, transaction, settle, drawAccepted, Config.settleUs]

theorem frameByte_cons (a : BusAddr) (d b : Byte) (t : TxAnswer) (rest : List TxAnswer) :
    frameByte a d b (t :: rest) =
      some ⟨t.status != 0, transaction a d [b] (min t.disc 1) (min t.payload 1) t.status, rest⟩ := by
  simp [frameByte, txFailed, txEvents_eq]

theorem frameByte_eq_some (a : BusAddr) (d b : Byte) (ts : List TxAnswer) (r : Sent)
    (h : frameByte a d b ts = some r) :
    ∃ t rest, ts = t :: rest ∧
      r = ⟨t.status != 0, transaction a d [b] (min t.disc 1) (min t.payload 1) t.status, rest⟩ := by
  cases ts with
  | nil => simp [frameByte] at h
  | cons t rest => rw [frameByte_cons] at h; exact ⟨t, rest, rfl, (Option.some.inj h).symm⟩

@[simp] theorem runLoop_done (a : BusAddr) (fb : Memory) (ts : List TxAnswer) (i : Nat) :
    runLoop a fb ts i 0 = some ⟨false, [], ts⟩ := by
  cases ts <;> rfl

theorem runLoop_unanswered (a : BusAddr) (fb : Memory) (i left : Nat) (h : 0 < left) :
    runLoop a fb [] i left = none := by
  cases left with
  | zero => omega
  | succ left => rfl

theorem runLoop_failed (a : BusAddr) (fb : Memory) (t : TxAnswer) (rest : List TxAnswer) (i left : Nat)
    (h : 0 < left) (ht : t.status ≠ 0) :
    runLoop a fb (t :: rest) i left =
      some ⟨true, transaction a 0x40#8 (fb.slice i left) (min t.disc 1) (min t.payload left) t.status, rest⟩ := by
  cases left with
  | zero => omega
  | succ left => simp [runLoop, ht, txEvents_eq, Config.discData]

theorem runLoop_accepted (a : BusAddr) (fb : Memory) (t : TxAnswer) (rest : List TxAnswer) (i left : Nat)
    (h : 0 < left) (ht : t.status = 0) :
    runLoop a fb (t :: rest) i left =
      (runLoop a fb rest (i + min t.payload left) (left - min t.payload left)).map
        (fun r => ⟨r.failed,
          transaction a 0x40#8 (fb.slice i left) (min t.disc 1) (min t.payload left) t.status ++ r.events,
          r.rest⟩) := by
  cases left with
  | zero => omega
  | succ left =>
    simp only [runLoop, txFailed, ht, txEvents_eq, Config.discData, drawAccepted, Memory.slice_length]
    simp only [bne_self_eq_false, Bool.false_eq_true, if_false]
    cases runLoop a fb rest (i + min t.payload (left + 1)) (left + 1 - min t.payload (left + 1)) <;> rfl

/-- Everything a data run can be: done, failed in its first transaction, or one accepted transaction and the rest of the
run from the moved cursor (41_protocol R103). -/
theorem runLoop_eq_some (a : BusAddr) (fb : Memory) (ts : List TxAnswer) (i left : Nat) (r : Sent)
    (h : runLoop a fb ts i left = some r) :
    (left = 0 ∧ r = ⟨false, [], ts⟩) ∨
    (0 < left ∧ ∃ t rest, ts = t :: rest ∧ t.status ≠ 0 ∧
      r = ⟨true, transaction a 0x40#8 (fb.slice i left) (min t.disc 1) (min t.payload left) t.status, rest⟩) ∨
    (0 < left ∧ ∃ t rest r', ts = t :: rest ∧ t.status = 0 ∧
      runLoop a fb rest (i + min t.payload left) (left - min t.payload left) = some r' ∧
      r = ⟨r'.failed,
        transaction a 0x40#8 (fb.slice i left) (min t.disc 1) (min t.payload left) t.status ++ r'.events,
        r'.rest⟩) := by
  rcases Nat.eq_zero_or_pos left with rfl | hl
  · rw [runLoop_done] at h; exact .inl ⟨rfl, (Option.some.inj h).symm⟩
  · right
    cases ts with
    | nil => rw [runLoop_unanswered _ _ _ _ hl] at h; cases h
    | cons t rest =>
      by_cases ht : t.status = 0
      · rw [runLoop_accepted _ _ _ _ _ _ hl ht, Option.map_eq_some_iff] at h
        obtain ⟨r', h1, h2⟩ := h
        exact .inr ⟨hl, t, rest, r', rfl, ht, h1, h2.symm⟩
      · rw [runLoop_failed _ _ _ _ _ _ hl ht] at h
        exact .inl ⟨hl, t, rest, rfl, ht, (Option.some.inj h).symm⟩

theorem runLoop_rest (a : BusAddr) (fb : Memory) (ts : List TxAnswer) :
    ∀ (i left : Nat) (r : Sent), runLoop a fb ts i left = some r → r.rest <:+ ts := by
  induction ts with
  | nil =>
    intro i left r h
    rcases runLoop_eq_some _ _ _ _ _ _ h with ⟨-, rfl⟩ | ⟨-, t, rest, e, -⟩ | ⟨-, t, rest, r', e, -⟩
    · exact List.suffix_rfl
    · cases e
    · cases e
  | cons t ts ih =>
    intro i left r h
    rcases runLoop_eq_some _ _ _ _ _ _ h with ⟨-, rfl⟩ | ⟨-, t', rest, e, -, rfl⟩ | ⟨-, t', rest, r', e, -, h', rfl⟩
    · exact List.suffix_rfl
    · cases e; exact List.suffix_cons _ _
    · cases e; exact (ih _ _ _ h').trans (List.suffix_cons _ _)

/-- Everything one script item can be framed as (41_protocol R110). -/
theorem frameItem_eq_some (a : BusAddr) (item : ScriptItem) (ts : List TxAnswer) (r : Sent)
    (h : frameItem a item ts = some r) :
    (∃ ms, item = .wait ms ∧ r = ⟨false, [.delayMs ms], ts⟩) ∨
    (∃ b t rest, item = .cmd b ∧ ts = t :: rest ∧
      r = ⟨t.status != 0, transaction a 0x00#8 [b] (min t.disc 1) (min t.payload 1) t.status, rest⟩) ∨
    (∃ b t rest, item = .data b ∧ ts = t :: rest ∧
      r = ⟨t.status != 0, transaction a 0x40#8 [b] (min t.disc 1) (min t.payload 1) t.status, rest⟩) := by
  cases item with
  | cmd b =>
    obtain ⟨t, rest, e, er⟩ := frameByte_eq_some _ _ _ _ _ h
    exact .inr (.inl ⟨b, t, rest, rfl, e, er⟩)
  | data b =>
    obtain ⟨t, rest, e, er⟩ := frameByte_eq_some _ _ _ _ _ h
    exact .inr (.inr ⟨b, t, rest, rfl, e, er⟩)
  | wait ms => exact .inl ⟨ms, rfl, (Option.some.inj h).symm⟩

@[simp] theorem runScript_nil (p : ErrPolicy) (a : BusAddr) (err : Bool) (ts : List TxAnswer) :
    runScript p a [] err ts = some ⟨err, [], ts⟩ := rfl

theorem runScript_stop (a : BusAddr) (items : List ScriptItem) (ts : List TxAnswer) :
    runScript .failFast a items true ts = some ⟨true, [], ts⟩ := by
  cases items <;> simp [runScript]

/-- One item of a script that the policy does not stop, and then the rest of it (44_sequencer R161). -/
theorem runScript_cons (p : ErrPolicy) (a : BusAddr) (item : ScriptItem) (items : List ScriptItem) (err : Bool)
    (ts : List TxAnswer) (h : ¬ (p = .failFast ∧ err = true)) :
    runScript p a (item :: items) err ts =
      (frameItem a item ts).bind (fun r =>
        (runScript p a items (err || r.failed) r.rest).map
          (fun r' => ⟨r'.failed, r.events ++ r'.events, r'.rest⟩)) := by
  simp only [runScript, if_neg h]
  cases frameItem a item ts with
  | none => rfl
  | some r => cases h' : runScript p a items (err || r.failed) r.rest <;> simp [h']

/-- Everything running a script can be (44_sequencer R161): stopped or at its end, or one item framed and then the rest. -/
theorem runScript_eq_some (p : ErrPolicy) (a : BusAddr) (items : List ScriptItem) (err : Bool) (ts : List TxAnswer)
    (r : Sent) (h : runScript p a items err ts = some r) :
    ((items = [] ∨ (p = .failFast ∧ err = true)) ∧ r = ⟨err, [], ts⟩) ∨
    (∃ item items' r1 r2, items = item :: items' ∧ ¬ (p = .failFast ∧ err = true) ∧
      frameItem a item ts = some r1 ∧ runScript p a items' (err || r1.failed) r1.rest = some r2 ∧
      r = ⟨r2.failed, r1.events ++ r2.events, r2.rest⟩) := by
  cases items with
  | nil => rw [runScript_nil] at h; exact .inl ⟨.inl rfl, (Option.some.inj h).symm⟩
  | cons item items =>
    by_cases hp : p = .failFast ∧ err = true
    · obtain ⟨rfl, rfl⟩ := hp
      rw [runScript_stop] at h
      exact .inl ⟨.inr ⟨rfl, rfl⟩, (Option.some.inj h).symm⟩
    · rw [runScript_cons _ _ _ _ _ _ hp, Option.bind_eq_some_iff] at h
      obtain ⟨r1, h1, h⟩ := h
      obtain ⟨r2, h2, h3⟩ := Option.map_eq_some_iff.1 h
      exact .inr ⟨item, items, r1, r2, rfl, hp, h1, h2, h3.symm⟩

theorem frameItem_rest (a : BusAddr) (item : ScriptItem) (ts : List TxAnswer) (r : Sent)
    (h : frameItem a item ts = some r) : r.rest <:+ ts := by
  rcases frameItem_eq_some _ _ _ _ h with ⟨ms, -, rfl⟩ | ⟨b, t, rest, -, rfl, rfl⟩ | ⟨b, t, rest, -, rfl, rfl⟩
  · exact List.suffix_rfl
  · exact List.suffix_cons _ _
  · exact List.suffix_cons _ _

theorem runScript_rest (p : ErrPolicy) (a : BusAddr) (items : List ScriptItem) :
    ∀ (err : Bool) (ts : List TxAnswer) (r : Sent), runScript p a items err ts = some r → r.rest <:+ ts := by
  induction items with
  | nil => intro err ts r h; rw [runScript_nil] at h; cases h; exact List.suffix_rfl
  | cons item items ih =>
    intro err ts r h
    rcases runScript_eq_some _ _ _ _ _ _ h with ⟨-, rfl⟩ | ⟨i, is, r1, r2, e, -, h1, h2, rfl⟩
    · exact List.suffix_rfl
    · cases e; exact (ih _ _ _ h2).trans (frameItem_rest _ _ _ _ h1)

/-- Everything a flush's traffic can be (44_sequencer R167). -/
theorem flushTraffic_eq_some (p : ErrPolicy) (a : BusAddr) (items : List ScriptItem) (fb : Memory) (n : Nat)
    (ts : List TxAnswer) (r : Sent) (h : flushTraffic p a items fb n ts = some r) :
    ∃ r1, runScript p a items false ts = some r1 ∧
      ((p = .failFast ∧ r1.failed = true ∧ r = r1) ∨
       (¬ (p = .failFast ∧ r1.failed = true) ∧ ∃ r2, frameRun a fb 0 n r1.rest = some r2 ∧
         r = ⟨r1.failed || r2.failed, r1.events ++ r2.events, r2.rest⟩)) := by
  unfold flushTraffic at h
  split at h
  · cases h
  · rename_i r1 h1
    refine ⟨r1, h1, ?_⟩
    split at h
    · rename_i hp; exact .inl ⟨hp.1, hp.2, (Option.some.inj h).symm⟩
    · rename_i hp
      split at h
      · cases h
      · rename_i r2 h2; exact .inr ⟨hp, r2, h2, (Option.some.inj h).symm⟩

theorem flushTraffic_rest (p : ErrPolicy) (a : BusAddr) (items : List ScriptItem) (fb : Memory) (n : Nat)
    (ts : List TxAnswer) (r : Sent) (h : flushTraffic p a items fb n ts = some r) : r.rest <:+ ts := by
  obtain ⟨r1, h1, ⟨-, -, rfl⟩ | ⟨-, r2, h2, rfl⟩⟩ := flushTraffic_eq_some _ _ _ _ _ _ _ h
  · exact runScript_rest _ _ _ _ _ _ h1
  · exact (runLoop_rest _ _ _ _ _ _ h2).trans (runScript_rest _ _ _ _ _ _ h1)

/-- Everything ending a bus operation can be (41_protocol R106 to R108). -/
theorem finishIo_eq_next (r : Option Sent) (s t : State) (h : finishIo r s = .next t) :
    ∃ r', r = some r' ∧ t = { s with
      status := ioStatus r'.failed, pos := s.pos + 1, trace := s.trace ++ r'.events, answers := r'.rest } := by
  cases r with
  | none => simp [finishIo] at h
  | some r' => exact ⟨r', rfl, by simpa [finishIo, Sent.applyTo] using h⟩

@[simp] theorem finishIo_some (r : Sent) (s : State) :
    finishIo (some r) s = .next { s with
      status := ioStatus r.failed, pos := s.pos + 1, trace := s.trace ++ r.events, answers := r.rest } := rfl

@[simp] theorem finishIo_none (s : State) : finishIo none s = .fault .transportHang := rfl

end Sys2Proof.Machine
end

