-- ==== Sys2Proof/Laws/Trace.lean ====
section
/-!
SUPPORT. The shape of what the framer emits (30_encoding R74 to R77, 41_protocol R102): every primitive's events are whole legal
segments; and what the wire and payload observers read of a transaction.
-/

namespace Sys2Proof.Machine

theorem WellFramed.nil (pin : Nat) : WellFramed pin [] := ⟨[], by simp, rfl⟩

theorem WellFramed.append {pin : Nat} {tr es : List Event} (h : WellFramed pin tr) (k : WellFramed pin es) :
    WellFramed pin (tr ++ es) := by
  obtain ⟨g1, h1, rfl⟩ := h
  obtain ⟨g2, h2, rfl⟩ := k
  refine ⟨g1 ++ g2, fun g hg => ?_, by simp⟩
  rcases List.mem_append.1 hg with hg | hg
  · exact h1 g hg
  · exact h2 g hg

theorem WellFramed.segment {pin : Nat} (g : Segment) (h : g.Legal pin) : WellFramed pin g.events :=
  ⟨[g], by simpa using h, by simp⟩

theorem wellFramed_cmd (pin : Nat) (a : BusAddr) (b : Byte) (t : TxAnswer) (ha : legalBusAddr a) :
    WellFramed pin (transaction a 0x00#8 [b] (min t.disc 1) (min t.payload 1) t.status) :=
  WellFramed.segment (.cmd a b _ _ _) ⟨ha, by omega, by omega⟩

theorem wellFramed_data (pin : Nat) (a : BusAddr) (b : Byte) (t : TxAnswer) (ha : legalBusAddr a) :
    WellFramed pin (transaction a 0x40#8 [b] (min t.disc 1) (min t.payload 1) t.status) :=
  WellFramed.segment (.data a b _ _ _) ⟨ha, by omega, by omega⟩

theorem wellFramed_chunk (pin : Nat) (a : BusAddr) (fb : Memory) (i left : Nat) (t : TxAnswer) (ha : legalBusAddr a)
    (hl : 0 < left) :
    WellFramed pin (transaction a 0x40#8 (fb.slice i left) (min t.disc 1) (min t.payload left) t.status) := by
  refine WellFramed.segment (.chunk a (fb.slice i left) _ _ _) ⟨ha, by omega, ?_, ?_⟩
  · rw [Memory.slice_length]; omega
  · intro e
    have := congrArg List.length e
    rw [Memory.slice_length] at this
    simp at this
    omega

theorem runLoop_wellFramed (pin : Nat) (a : BusAddr) (fb : Memory) (ha : legalBusAddr a) (ts : List TxAnswer) :
    ∀ (i left : Nat) (r : Sent), runLoop a fb ts i left = some r → WellFramed pin r.events := by
  induction ts with
  | nil =>
    intro i left r h
    rcases runLoop_eq_some _ _ _ _ _ _ h with ⟨-, rfl⟩ | ⟨-, t, rest, e, -⟩ | ⟨-, t, rest, r', e, -⟩
    · exact WellFramed.nil pin
    · cases e
    · cases e
  | cons t ts ih =>
    intro i left r h
    rcases runLoop_eq_some _ _ _ _ _ _ h with ⟨-, rfl⟩ | ⟨hl, t', rest, e, -, rfl⟩ |
      ⟨hl, t', rest, r', e, -, h', rfl⟩
    · exact WellFramed.nil pin
    · exact wellFramed_chunk _ _ _ _ _ _ ha hl
    · cases e; exact (wellFramed_chunk _ _ _ _ _ _ ha hl).append (ih _ _ _ h')

theorem frameItem_wellFramed (pin : Nat) (a : BusAddr) (ha : legalBusAddr a) (item : ScriptItem) (ts : List TxAnswer)
    (r : Sent) (h : frameItem a item ts = some r) : WellFramed pin r.events := by
  rcases frameItem_eq_some _ _ _ _ h with ⟨ms, -, rfl⟩ | ⟨b, t, rest, -, rfl, rfl⟩ | ⟨b, t, rest, -, rfl, rfl⟩
  · exact WellFramed.segment (.wait ms) trivial
  · exact wellFramed_cmd _ _ _ _ ha
  · exact wellFramed_data _ _ _ _ ha

theorem runScript_wellFramed (pin : Nat) (p : ErrPolicy) (a : BusAddr) (ha : legalBusAddr a)
    (items : List ScriptItem) :
    ∀ (err : Bool) (ts : List TxAnswer) (r : Sent), runScript p a items err ts = some r →
      WellFramed pin r.events := by
  induction items with
  | nil => intro err ts r h; rw [runScript_nil] at h; cases h; exact WellFramed.nil pin
  | cons item items ih =>
    intro err ts r h
    rcases runScript_eq_some _ _ _ _ _ _ h with ⟨-, rfl⟩ | ⟨i, is, r1, r2, e, -, h1, h2, rfl⟩
    · exact WellFramed.nil pin
    · cases e; exact (frameItem_wellFramed _ _ ha _ _ _ h1).append (ih _ _ _ h2)

theorem flushTraffic_wellFramed (pin : Nat) (p : ErrPolicy) (a : BusAddr) (ha : legalBusAddr a)
    (items : List ScriptItem) (fb : Memory) (n : Nat) (ts : List TxAnswer) (r : Sent)
    (h : flushTraffic p a items fb n ts = some r) : WellFramed pin r.events := by
  obtain ⟨r1, h1, ⟨-, -, rfl⟩ | ⟨-, r2, h2, rfl⟩⟩ := flushTraffic_eq_some _ _ _ _ _ _ _ h
  · exact runScript_wellFramed _ _ _ ha _ _ _ _ h1
  · exact (runScript_wellFramed _ _ _ ha _ _ _ _ h1).append (runLoop_wellFramed _ _ _ ha _ _ _ _ h2)

theorem resetPulse_wellFramed (pin : Nat) : WellFramed pin (resetPulse pin) :=
  WellFramed.segment (.pulse pin) rfl

theorem wireBytes_append (xs ys : List Event) : wireBytes (xs ++ ys) = wireBytes xs ++ wireBytes ys := by
  induction xs with
  | nil => rfl
  | cons e xs ih => cases e <;> simp [wireBytes, ih]

theorem wireBytes_transaction (a : BusAddr) (d : Byte) (body : List Byte) (n1 n2 s : Nat) (es : List Event) :
    wireBytes (transaction a d body n1 n2 s ++ es) = [d].take n1 ++ (body.take n2 ++ wireBytes es) := by
  unfold transaction; split <;> simp [wireBytes]

theorem payloadBytes_transaction (a : BusAddr) (d : Byte) (body : List Byte) (n1 n2 s : Nat) (es : List Event) :
    payloadBytes (transaction a d body n1 n2 s ++ es) = body.take n2 ++ payloadBytes es := by
  unfold transaction; split <;> simp [payloadBytes]

end Sys2Proof.Machine
end

