-- ==== Sys2Proof/Laws/Exec.lean ====
section
/-!
SUPPORT. Everything each operation can do: one inversion lemma per meaning ("if it answers `next t`, then ..."), for the
proofs about all operations to cite.
-/

namespace Sys2Proof.Machine

theorem execSetup_eq_next (a : Byte) (s t : State) (h : execSetup a s = .next t) :
    (addrLegal a = false ∧ t = { s with status := .invalidArgument, pos := s.pos + 1 }) ∨
    (addrLegal a = true ∧ ∃ r, runScript s.cfg.errPolicy (addrBits a) s.cfg.initScript false s.answers = some r ∧
      t = { s with
        mode := .buffered, ready := !r.failed, addr := addrBits a, status := ioStatus r.failed, pos := s.pos + 1
        trace := s.trace ++ resetPulse s.cfg.resetPin ++ r.events ++
          (if r.failed then [] else [.delayMs Config.postInitMs])
        answers := r.rest }) := by
  unfold execSetup at h
  split at h
  · rename_i ha; exact .inl ⟨ha, (finish_eq_next _ _ _).1 h⟩
  · rename_i ha
    split at h
    · cases h
    · rename_i r hr
      refine .inr ⟨by simpa using ha, r, hr, ?_⟩
      cases hf : r.failed <;>
        simpa [hf, Sent.applyTo, setupBegin, State.emit, List.append_assoc] using h

theorem execResolve_eq_next (x y : Half) (s t : State) (h : execResolve x y s = .next t) :
    (resolvePanel s.cfg.geometry (sint16 x) (sint16 y) s.rot = none ∧
      t = { s with status := .invalidArgument, pos := s.pos + 1 }) ∨
    (∃ p, resolvePanel s.cfg.geometry (sint16 x) (sint16 y) s.rot = some p ∧
      t = { s with result := p.packed, status := .ok, pos := s.pos + 1 }) := by
  unfold execResolve at h
  split at h
  · rename_i hr; exact .inl ⟨hr, by simpa using h⟩
  · rename_i p hr; exact .inr ⟨p, hr, by simpa using h⟩

theorem execPixel_eq_next (c x y : Half) (s t : State) (h : execPixel c x y s = .next t) :
    (s.ready = false ∧ t = { s with fault := 2#8 }) ∨
    (s.ready = true ∧ s.mode ≠ .buffered ∧ t = { s with status := .unsupported, pos := s.pos + 1 }) ∨
    (s.ready = true ∧ s.mode = .buffered ∧ resolvePanel s.cfg.geometry (sint16 x) (sint16 y) s.rot = none ∧
      t = { s with status := .invalidArgument, pos := s.pos + 1 }) ∨
    (s.ready = true ∧ s.mode = .buffered ∧
      ∃ p, resolvePanel s.cfg.geometry (sint16 x) (sint16 y) s.rot = some p ∧
        t = { fbWriteBit p (colorOn c) s with status := .ok, pos := s.pos + 1 }) := by
  unfold execPixel at h
  split at h
  · rename_i hr; exact .inl ⟨hr, by simpa [FaultCode.code] using h⟩
  · rename_i hr
    have hr' : s.ready = true := by simpa using hr
    split at h
    · rename_i hm; exact .inr (.inl ⟨hr', hm, by simpa using h⟩)
    · rename_i hm
      have hm' : s.mode = .buffered := by simpa using hm
      split at h
      · rename_i hp; exact .inr (.inr (.inl ⟨hr', hm', hp, by simpa using h⟩))
      · rename_i p hp; exact .inr (.inr (.inr ⟨hr', hm', p, hp, by simpa using h⟩))

theorem execPsetRaw_eq_next (c x y : Half) (s t : State) (h : execPsetRaw c x y s = .next t) :
    (s.ready = false ∧ t = { s with fault := 2#8 }) ∨
    (s.ready = true ∧ s.mode ≠ .buffered ∧ t = { s with status := .unsupported, pos := s.pos + 1 }) ∨
    (s.ready = true ∧ s.mode = .buffered ∧ (s.cfg.geometry.aw ≤ x.toNat ∨ s.cfg.geometry.ah ≤ y.toNat) ∧
      t = { s with fault := 3#8 }) ∨
    (s.ready = true ∧ s.mode = .buffered ∧ x.toNat < s.cfg.geometry.aw ∧ y.toNat < s.cfg.geometry.ah ∧
      t = { fbWriteBit ⟨x.toNat, y.toNat⟩ (colorOn c) s with status := .ok, pos := s.pos + 1 }) := by
  unfold execPsetRaw at h
  split at h
  · rename_i hr; exact .inl ⟨hr, by simpa [FaultCode.code] using h⟩
  · rename_i hr
    have hr' : s.ready = true := by simpa using hr
    split at h
    · rename_i hm; exact .inr (.inl ⟨hr', hm, by simpa using h⟩)
    · rename_i hm
      have hm' : s.mode = .buffered := by simpa using hm
      split at h
      · rename_i hp; exact .inr (.inr (.inl ⟨hr', hm', hp, by simpa [FaultCode.code] using h⟩))
      · rename_i hp
        exact .inr (.inr (.inr ⟨hr', hm', by omega, by omega, by simpa using h⟩))

theorem execClear_eq_next (s t : State) (h : execClear s = .next t) :
    (s.ready = false ∧ t = { s with fault := 2#8 }) ∨
    (s.ready = true ∧ s.mode ≠ .buffered ∧ t = { s with status := .unsupported, pos := s.pos + 1 }) ∨
    (s.ready = true ∧ s.mode = .buffered ∧
      t = { s with fb := s.fb.clearUpTo s.cfg.geometry.fbLen, status := .ok, pos := s.pos + 1 }) := by
  unfold execClear at h
  split at h
  · rename_i hr; exact .inl ⟨hr, by simpa [FaultCode.code] using h⟩
  · rename_i hr
    have hr' : s.ready = true := by simpa using hr
    split at h
    · rename_i hm; exact .inr (.inl ⟨hr', hm, by simpa using h⟩)
    · rename_i hm; exact .inr (.inr ⟨hr', by simpa using hm, by simpa using h⟩)

theorem execFlush_eq_next (s t : State) (h : execFlush s = .next t) :
    (s.ready = false ∧ t = { s with fault := 2#8 }) ∨
    (s.ready = true ∧ s.mode ≠ .buffered ∧ t = { s with status := .unsupported, pos := s.pos + 1 }) ∨
    (s.ready = true ∧ s.mode = .buffered ∧
      ∃ r, flushTraffic s.cfg.errPolicy s.addr (s.cfg.flushPrefix.map PrefixItem.toScript) s.fb
          s.cfg.geometry.fbLen s.answers = some r ∧
        t = { s with
          status := ioStatus r.failed, pos := s.pos + 1, trace := s.trace ++ r.events, answers := r.rest }) := by
  unfold execFlush at h
  split at h
  · rename_i hr; exact .inl ⟨hr, by simpa [FaultCode.code] using h⟩
  · rename_i hr
    have hr' : s.ready = true := by simpa using hr
    split at h
    · rename_i hm; exact .inr (.inl ⟨hr', hm, by simpa using h⟩)
    · rename_i hm
      exact .inr (.inr ⟨hr', by simpa using hm, finishIo_eq_next _ _ _ h⟩)

theorem execSendCmd_eq_next (b : Byte) (s t : State) (h : execSendCmd b s = .next t) :
    (s.mode = .uninit ∧ t = { s with fault := 4#8 }) ∨
    (s.mode ≠ .uninit ∧ ∃ r, frameByte s.addr Config.discCmd b s.answers = some r ∧
      t = { s with
        status := ioStatus r.failed, pos := s.pos + 1, trace := s.trace ++ r.events, answers := r.rest }) := by
  unfold execSendCmd at h
  split at h
  · rename_i hm; exact .inl ⟨hm, by simpa [FaultCode.code] using h⟩
  · rename_i hm; exact .inr ⟨hm, finishIo_eq_next _ _ _ h⟩

theorem execSendData_eq_next (b : Byte) (s t : State) (h : execSendData b s = .next t) :
    (s.mode = .uninit ∧ t = { s with fault := 4#8 }) ∨
    (s.mode ≠ .uninit ∧ ∃ r, frameByte s.addr Config.discData b s.answers = some r ∧
      t = { s with
        status := ioStatus r.failed, pos := s.pos + 1, trace := s.trace ++ r.events, answers := r.rest }) := by
  unfold execSendData at h
  split at h
  · rename_i hm; exact .inl ⟨hm, by simpa [FaultCode.code] using h⟩
  · rename_i hm; exact .inr ⟨hm, finishIo_eq_next _ _ _ h⟩

theorem execSendRun_eq_next (off len : Field24) (s t : State) (h : execSendRun off len s = .next t) :
    (s.mode = .uninit ∧ t = { s with fault := 4#8 }) ∨
    (s.mode ≠ .uninit ∧ s.cfg.geometry.fbLen < off.toNat + len.toNat ∧ t = { s with fault := 3#8 }) ∨
    (s.mode ≠ .uninit ∧ off.toNat + len.toNat ≤ s.cfg.geometry.fbLen ∧
      ∃ r, frameRun s.addr s.fb off.toNat len.toNat s.answers = some r ∧
        t = { s with
          status := ioStatus r.failed, pos := s.pos + 1, trace := s.trace ++ r.events, answers := r.rest }) := by
  unfold execSendRun at h
  split at h
  · rename_i hm; exact .inl ⟨hm, by simpa [FaultCode.code] using h⟩
  · rename_i hm
    split at h
    · rename_i hr; exact .inr (.inl ⟨hm, hr, by simpa [FaultCode.code] using h⟩)
    · rename_i hr; exact .inr (.inr ⟨hm, by omega, finishIo_eq_next _ _ _ h⟩)

theorem execProbe_eq_next (s t : State) (h : execProbe s = .next t) :
    (s.mode = .uninit ∧ t = { s with result := 0#32, status := .ok, pos := s.pos + 1 }) ∨
    (s.mode ≠ .uninit ∧ ∃ x rest, s.answers = x :: rest ∧
      t = { s with
        result := ackResult x, status := .ok, pos := s.pos + 1
        trace := s.trace ++ [.txBegin s.addr, .txEnd x.status], answers := rest }) := by
  unfold execProbe at h
  split at h
  · rename_i hm; exact .inl ⟨hm, by simpa using h⟩
  · rename_i hm
    split at h
    · cases h
    · rename_i x rest hx; exact .inr ⟨hm, x, rest, hx, by simpa using h⟩

/-- Everything a step can do (30_encoding R71): stop, wait, raise F_ILLEGAL, or run the decoded operation. -/
theorem step_eq_next (s t : State) (h : step s = .next t) :
    s.fault = 0#8 ∧
    ((s.nextWord = none ∧ t = s) ∨
     (∃ w why, s.nextWord = some w ∧ decode w = .illegal why ∧ t = { s with fault := 1#8 }) ∨
     (∃ w i, s.nextWord = some w ∧ decode w = .legal i ∧ exec i s = .next t)) := by
  unfold step at h
  split at h
  · cases h
  · rename_i hs
    refine ⟨by simpa [State.isStopped] using hs, ?_⟩
    split at h
    · rename_i hw; exact .inl ⟨hw, by simpa [await, eq_comm] using h⟩
    · rename_i w hw
      split at h
      · rename_i why hd; exact .inr (.inl ⟨w, why, hw, hd, by simpa [FaultCode.code] using h⟩)
      · rename_i i hd; exact .inr (.inr ⟨w, i, hw, hd, h⟩)

end Sys2Proof.Machine
end

