-- ==== Sys2Proof/Laws/PerInstr.lean ====
section
/-!
SUPPORT. A statement about every operation as syntax, with one lemma per constructor: the word an operation is encoded as
holds the opcode of its row (30_encoding R67) and no reserved bit of its format (R62 to R65, R69).
-/

namespace Sys2Proof.Laws.EncodedWord

/-- The opcode of an operation's row of the opcode map (30_encoding R67). -/
def opcode : Instr → Byte
  | .setup _ => 0x01#8
  | .setRotation _ => 0x02#8
  | .resolve _ _ => 0x03#8
  | .pixel _ _ _ => 0x04#8
  | .psetRaw _ _ _ => 0x05#8
  | .clear => 0x06#8
  | .flush => 0x07#8
  | .sendCmd _ => 0x08#8
  | .sendData _ => 0x09#8
  | .sendRun _ _ => 0x0A#8
  | .probe => 0x0B#8

/-- The reserved bits of an operation's format (30_encoding R62 to R65; RESOLVE's COLOR field is reserved). -/
def reserved : Instr → OpWord
  | .setup _ => 0x00FFFFFFFFFFFF00#64
  | .setRotation _ => 0x00FFFFFFFFFFFF00#64
  | .resolve _ _ => 0x00FFFFFF00000000#64
  | .pixel _ _ _ => 0x00FF000000000000#64
  | .psetRaw _ _ _ => 0x00FF000000000000#64
  | .clear => 0x00FFFFFFFFFFFFFF#64
  | .flush => 0x00FFFFFFFFFFFFFF#64
  | .sendCmd _ => 0x00FFFFFFFFFFFF00#64
  | .sendData _ => 0x00FFFFFFFFFFFF00#64
  | .sendRun _ _ => 0x00FF000000000000#64
  | .probe => 0x00FFFFFFFFFFFFFF#64

/-- The word of `i` has the opcode of its row and no reserved bit set. -/
def Statement (i : Instr) : Prop := opcodeOf (encode i) = opcode i ∧ encode i &&& reserved i = 0#64

theorem setup (b : Byte) : Statement (.setup b) := ⟨opcodeOf_formatB _ _, formatB_reserved _ _⟩

theorem setRotation (b : Byte) : Statement (.setRotation b) := ⟨opcodeOf_formatB _ _, formatB_reserved _ _⟩

theorem resolve (x y : Half) : Statement (.resolve x y) := ⟨opcodeOf_formatP _ _ _ _, formatP_reserved_noColor _ _ _⟩

theorem pixel (color x y : Half) : Statement (.pixel color x y) :=
  ⟨opcodeOf_formatP _ _ _ _, formatP_reserved _ _ _ _⟩

theorem psetRaw (color x y : Half) : Statement (.psetRaw color x y) :=
  ⟨opcodeOf_formatP _ _ _ _, formatP_reserved _ _ _ _⟩

theorem clear : Statement .clear := ⟨opcodeOf_formatN _, formatN_reserved _⟩

theorem flush : Statement .flush := ⟨opcodeOf_formatN _, formatN_reserved _⟩

theorem sendCmd (b : Byte) : Statement (.sendCmd b) := ⟨opcodeOf_formatB _ _, formatB_reserved _ _⟩

theorem sendData (b : Byte) : Statement (.sendData b) := ⟨opcodeOf_formatB _ _, formatB_reserved _ _⟩

theorem sendRun (off len : Field24) : Statement (.sendRun off len) :=
  ⟨opcodeOf_formatR _ _ _, formatR_reserved _ _ _⟩

theorem probe : Statement .probe := ⟨opcodeOf_formatN _, formatN_reserved _⟩

end Sys2Proof.Laws.EncodedWord
end

