-- ==== Sys2Proof/Tests/Slice0.lean ====
section
/-!
SUPPORT. Tests of single steps, with expected results taken from spec/95_test_vectors.md (the vector's name stands at each test), the
smoke tests of well-formedness, and for every statement with hypotheses a concrete case that meets them.
-/

open Sys2Proof Sys2Proof.Machine Sys2Proof.Claims

namespace Sys2Proof.Tests

/-! ## Helpers -/

/-- `P_AW = 128`, `P_AH = 64`: the conventions of spec/95_test_vectors.md. -/
def big : Geometry := ⟨128, 64, 128, 64, by decide⟩

/-- `P_AW = 10`, `P_AH = 20`: a panel with padding rows. -/
def padded : Geometry := ⟨10, 20, 10, 20, by decide⟩

/-- `P_AW = 8`, `P_AH = 8`: one page. -/
def small : Geometry := ⟨8, 8, 8, 8, by decide⟩

/-- Placeholder bytes for the script `S1` and the prefix `P1` of spec/95_test_vectors.md. -/
def params (g : Geometry) (policy : ErrPolicy) : Params where
  geometry := g
  initScript := [.cmd 0x11#8, .cmd 0x12#8, .wait 50, .cmd 0x13#8, .data 0x14#8]
  flushPrefix := [.cmd 0x15#8, .data 0x16#8, .cmd 0x17#8]
  resetPin := 9
  errPolicy := policy
  sleepOut := 0x12#8
  gdramWrite := 0x17#8

/-- A transaction that accepts the discriminator and up to `n` bytes, and ends with status `e`. -/
def ans (n e : Nat) : TxAnswer := ⟨1, n, e⟩

/-- A block right after reset. -/
def fresh (g : Geometry) (answers : List TxAnswer) : State :=
  { State.reset with cfg := params g .accumulate, answers := answers }

/-- A ready block at address 0x3C. -/
def ready (g : Geometry) (fb : Memory) (answers : List TxAnswer) : State :=
  { fresh g answers with mode := .buffered, ready := true, addr := 0x3C#7, fb := fb }

/-- `s` with the other error policy. -/
def failFast (s : State) : State := { s with cfg := params s.cfg.geometry .failFast }

/-- What a step leaves, read by `f`; `none` if the step has no next state. -/
def left {α : Type} (f : State → α) : Result → Option α
  | .next t => some (f t)
  | .fault _ => none
  | .refused _ => none

/-- `S(b)` of spec/95_test_vectors.md. -/
def sentCmd (b : Byte) : List Event := [.txBegin 0x3C#7, .txWrite [0x00#8] 1, .txWrite [b] 1, .txEnd 0, .delayUs 27]

/-- `D(b)` of spec/95_test_vectors.md. -/
def sentData (b : Byte) : List Event := [.txBegin 0x3C#7, .txWrite [0x40#8] 1, .txWrite [b] 1, .txEnd 0, .delayUs 27]

/-- The reset pulse of V-S2. -/
def pulsed : List Event := [.pinMode 9, .pinWrite 9 .low, .delayMs 2, .pinWrite 9 .high, .delayMs 2]

/-- `n` bytes of value `v`, from index `a`. -/
def filled (a n : Nat) (v : Byte) : Memory := (List.range' a n).map (fun i => (i, v))

/-! ## Well-formedness: an ill-formed term for each check, which the check refuses -/

theorem test_geometry_refuses_zero_width : Geometry.make? 10 10 0 5 = none := by decide
theorem test_geometry_refuses_zero_height : Geometry.make? 10 10 5 0 = none := by decide
theorem test_geometry_refuses_wide_active_area : Geometry.make? 10 10 11 5 = none := by decide
theorem test_geometry_refuses_tall_active_area : Geometry.make? 10 10 5 11 = none := by decide
theorem test_geometry_refuses_wide_panel : Geometry.make? 32768 10 5 5 = none := by decide
theorem test_geometry_refuses_tall_panel : Geometry.make? 10 32768 5 5 = none := by decide
theorem test_geometry_accepts_largest : (Geometry.make? 32767 32767 32767 32767).isSome = true := by decide

theorem test_script_refuses_missing_wait : initScriptWf 0x12#8 [.cmd 0x11#8, .cmd 0x12#8, .cmd 0x13#8] = false := by
  decide
theorem test_script_refuses_short_wait : initScriptWf 0x12#8 [.cmd 0x12#8, .wait 49] = false := by decide
theorem test_script_refuses_data_item : initScriptWf 0x12#8 [.data 0x12#8, .wait 50] = false := by decide
theorem test_script_accepts_s1 : initScriptWf 0x12#8 (params big .accumulate).initScript = true := by decide

theorem test_prefix_refuses_other_last : flushPrefixWf 0x17#8 [.cmd 0x17#8, .cmd 0x15#8] = false := by decide
theorem test_prefix_refuses_data_last : flushPrefixWf 0x17#8 [.data 0x17#8] = false := by decide
theorem test_prefix_refuses_empty : flushPrefixWf 0x17#8 [] = false := by decide

/-- 30_encoding R72's own examples, and a bound of each other field. -/
theorem test_line_refuses_operands :
    (AsmLine.pixel 40000 0 1).wf big = false ∧ (AsmLine.sendCmd 256).wf big = false ∧
    (AsmLine.setup 256).wf big = false ∧ (AsmLine.setRotation (-1)).wf big = false ∧
    (AsmLine.resolve 0 (-32769)).wf big = false ∧ (AsmLine.pixel 0 0 65536).wf big = false ∧
    (AsmLine.psetRaw 65536 0 1).wf big = false ∧ (AsmLine.sendData (-1)).wf big = false ∧
    (AsmLine.sendRun 16777216 0).wf big = false ∧ (AsmLine.sendRun 0 16777216).wf big = false ∧
    (AsmLine.pixelOn 32768 0).wf big = false ∧ (AsmLine.pixelOff 0 32768).wf big = false ∧
    (AsmLine.pset (-1) 0).wf big = false ∧ (AsmLine.pclr 0 65536).wf big = false := by decide

/-! ## Decoding: words written out from the formats R62 to R65 and the opcode map R67 -/

theorem test_decode_setup :
    decode 0b0000000100000000000000000000000000000000000000000000000000111100#64 = .legal (.setup 0x3C#8) := by decide
theorem test_decode_set_rotation :
    decode 0b0000001000000000000000000000000000000000000000000000000000000001#64 = .legal (.setRotation 1#8) := by decide
theorem test_decode_resolve :
    decode 0b0000001100000000000000000000000011111111111111110000000000000000#64 = .legal (.resolve 0xFFFF#16 0#16) := by
  decide
theorem test_decode_pixel :
    decode 0b0000010000000000000000000000000100000000000001010000000000001010#64 = .legal (.pixel 1#16 5#16 10#16) := by
  decide
theorem test_decode_pset_raw :
    decode 0b0000010100000000000000000000000000000000000000000000000000000110#64 = .legal (.psetRaw 0#16 0#16 6#16) := by
  decide
theorem test_decode_clear :
    decode 0b0000011000000000000000000000000000000000000000000000000000000000#64 = .legal .clear := by decide
theorem test_decode_flush :
    decode 0b0000011100000000000000000000000000000000000000000000000000000000#64 = .legal .flush := by decide
theorem test_decode_send_cmd :
    decode 0b0000100000000000000000000000000000000000000000000000000010101111#64 = .legal (.sendCmd 0xAF#8) := by decide
theorem test_decode_send_data :
    decode 0b0000100100000000000000000000000000000000000000000000000001010101#64 = .legal (.sendData 0x55#8) := by decide
theorem test_decode_send_run :
    decode 0b0000101000000000000000000000000010000000000000000000000001100100#64 = .legal (.sendRun 128#24 100#24) := by
  decide
theorem test_decode_probe :
    decode 0b0000101100000000000000000000000000000000000000000000000000000000#64 = .legal .probe := by decide

/-- V-E1 to V-E5, V-E7. -/
theorem test_decode_illegal :
    decode 0x0000000000000000#64 = .illegal .opcode ∧ decode 0x0C00000000000000#64 = .illegal .opcode ∧
    decode 0xFF00000000000000#64 = .illegal .opcode ∧ decode 0x0600000000000001#64 = .illegal .reservedBits ∧
    decode 0x0300000100000000#64 = .illegal .reservedBits ∧
    decode 0x08010000000000AF#64 = .illegal .reservedBits := by decide

/-- V-E6. -/
theorem test_decode_pixel_color : decode 0x0400000100000000#64 = .legal (.pixel 1#16 0#16 0#16) := by decide

/-- 30_encoding R72, R73, R79: lines of text. -/
theorem test_text_pixel : assembleText big "PIXEL 5, 10, 1" = some 0x040000010005000A#64 := by decide
theorem test_text_resolve : assembleText big "RESOLVE -1, 0" = some 0x03000000FFFF0000#64 := by decide
theorem test_text_send_cmd : assembleText big "SEND_CMD 0xAF" = some 0x08000000000000AF#64 := by decide
theorem test_text_send_fb : assembleText big "SEND_FB" = some 0x0A00000000000400#64 := by decide
theorem test_text_refused : assembleText big "SEND_CMD 256" = none := by decide

/-! ## The host's view of the table: spec/opcode_table.json's numbering, and a first word after reset -/

theorem test_table_word_send_run :
    decodeTableWord 64 0x0A00000080000064 = some (.sendRun 128#24 100#24) ∧ decodeTableWord 64 0 = none := by decide

theorem test_first_word_runs :
    left State.rot (step (State.reset.withFetchWord 64 0x0200000000000003)) = some 3#8 := by decide

/-! ## One step of each operation -/

/-- V-S2. -/
theorem test_setup_succeeds :
    left (fun t => (t.mode, t.ready, t.addr, t.status, t.trace))
      (exec (.setup 0x3C#8) (fresh big [ans 31 0, ans 31 0, ans 31 0, ans 31 0])) =
    some (.buffered, true, 0x3C#7, .ok, pulsed ++ sentCmd 0x11#8 ++ sentCmd 0x12#8 ++ [.delayMs 50] ++
      sentCmd 0x13#8 ++ sentData 0x14#8 ++ [.delayMs 100]) := by decide

/-- V-S3. -/
theorem test_setup_accumulates :
    left (fun t => (t.ready, t.status, t.trace))
      (exec (.setup 0x3C#8) (fresh big [ans 31 0, ans 31 1, ans 31 0, ans 31 0])) =
    some (false, .ioError, pulsed ++ sentCmd 0x11#8 ++
      [.txBegin 0x3C#7, .txWrite [0x00#8] 1, .txWrite [0x12#8] 1, .txEnd 1] ++ [.delayMs 50] ++
      sentCmd 0x13#8 ++ sentData 0x14#8) := by decide

/-- V-R2. -/
theorem test_set_rotation :
    left (fun t => (t.rot, t.status)) (exec (.setRotation 200#8) (fresh big [])) = some (200#8, .ok) := by decide

/-- V-T6, V-T7. -/
theorem test_resolve_90 :
    left (fun t => (t.result, t.status)) (exec (.resolve 5#16 10#16) { fresh big [] with rot := 1#8 }) =
      some (0x00750005#32, .ok) := by decide
theorem test_resolve_out_of_bounds :
    left (fun t => (t.result, t.status))
      (exec (.resolve 200#16 0#16) { fresh big [] with result := 0x00750005#32 }) =
      some (0x00750005#32, .invalidArgument) := by decide

/-- V-P4. -/
theorem test_pixel_270 :
    left (fun t => (t.fb, t.status))
      (exec (.pixel 1#16 5#16 10#16) { ready big [(906, 0x00#8)] [] with rot := 3#8 }) =
      some ([(906, 0x04#8)], .ok) := by decide

/-- V-P5. -/
theorem test_pixel_negative :
    left (fun t => (t.fb, t.status)) (exec (.pixel 1#16 0xFFFF#16 0#16) (ready big [] [])) =
      some ([], .invalidArgument) := by decide

/-- V-B5. -/
theorem test_pset_raw_clears :
    left State.fb (exec (.psetRaw 0#16 0#16 3#16) (ready big [(0, 0xFF#8), (1, 0xFF#8)] [])) =
      some [(0, 0xF7#8), (1, 0xFF#8)] := by decide

/-- V-B12. -/
theorem test_pset_raw_padding_row :
    left (fun t => (t.fault, t.fb)) (exec (.psetRaw 1#16 0#16 20#16) (ready padded [(20, 1#8)] [])) =
      some (3#8, [(20, 1#8)]) := by decide

/-- V-B13. -/
theorem test_clear_padding :
    left State.fb (exec .clear (ready padded [(29, 0xF8#8)] [])) = some (filled 0 30 0x00#8) := by decide

/-- V-L1. -/
theorem test_flush_sends :
    left (fun t => (t.status, t.trace))
      (exec .flush (ready small (filled 0 8 0xA5#8) [ans 31 0, ans 31 0, ans 31 0, ans 31 0])) =
    some (.ok, sentCmd 0x15#8 ++ sentData 0x16#8 ++ sentCmd 0x17#8 ++
      [.txBegin 0x3C#7, .txWrite [0x40#8] 1, .txWrite (List.replicate 8 0xA5#8) 8, .txEnd 0, .delayUs 27]) := by decide

/-- V-L3. -/
theorem test_flush_fails_fast :
    left (fun t => (t.status, t.trace)) (exec .flush (failFast (ready small [] [ans 31 0, ans 31 3, ans 31 0]))) =
    some (.ioError, sentCmd 0x15#8 ++ [.txBegin 0x3C#7, .txWrite [0x40#8] 1, .txWrite [0x16#8] 1, .txEnd 3]) := by
  decide

/-- V-F1, V-F3. -/
theorem test_send_cmd_ok :
    left (fun t => (t.status, t.trace)) (exec (.sendCmd 0xAF#8) (ready big [] [ans 31 0])) =
      some (.ok, sentCmd 0xAF#8) := by decide
theorem test_send_cmd_fails :
    left (fun t => (t.status, t.trace)) (exec (.sendCmd 0xAF#8) (ready big [] [ans 31 1])) =
      some (.ioError, [.txBegin 0x3C#7, .txWrite [0x00#8] 1, .txWrite [0xAF#8] 1, .txEnd 1]) := by decide

/-- V-F2. -/
theorem test_send_data_ok :
    left (fun t => (t.status, t.trace)) (exec (.sendData 0x55#8) (ready big [] [ans 31 0])) =
      some (.ok, sentData 0x55#8) := by decide

/-- V-F7, on three bytes. -/
theorem test_send_run_zero_progress :
    left (fun t => (t.status, t.trace))
      (exec (.sendRun 0#24 3#24) (ready big [(0, 1#8), (1, 2#8), (2, 3#8)] [ans 0 0, ans 10 0])) =
    some (.ok, [.txBegin 0x3C#7, .txWrite [0x40#8] 1, .txWrite [1#8, 2#8, 3#8] 0, .txEnd 0, .delayUs 27,
      .txBegin 0x3C#7, .txWrite [0x40#8] 1, .txWrite [1#8, 2#8, 3#8] 3, .txEnd 0, .delayUs 27]) := by decide

/-- V-F8. -/
theorem test_send_run_out_of_range :
    left (fun t => (t.fault, t.trace)) (exec (.sendRun 1000#24 100#24) (ready big [] [ans 31 0])) =
      some (3#8, []) := by decide

/-- V-F14. -/
theorem test_probe_no_acknowledge :
    left (fun t => (t.result, t.status, t.trace)) (exec .probe (ready big [] [ans 0 2])) =
      some (0#32, .ok, [.txBegin 0x3C#7, .txEnd 2]) := by decide

/-- V-F12. -/
theorem test_probe_unconfigured :
    left (fun t => (t.result, t.status, t.trace)) (exec .probe { fresh big [] with result := 7#32 }) =
      some (0#32, .ok, []) := by decide

/-! ## Witnesses: for every statement with hypotheses, a case that meets them, at a boundary where a clause has one -/

/-- A block to which `w` is presented. -/
def presenting (s : State) (w : OpWord) : State := { s with program := [w], pos := 0 }

/-- Answers enough for a script and a run. -/
def plenty : List TxAnswer := List.replicate 12 (ans 31 0)

theorem witness_OneWordPerOperation : decode 0x0A00000080000064#64 = .legal (.sendRun 128#24 100#24) := by decide

theorem witness_IllegalOpcodeFaults :
    (Presents (presenting (fresh big []) 0#64) 0#64 ∧ opcodeNumber 0#64 = 0) ∧
    (Presents (presenting (fresh big []) 0x0C00000000000000#64) 0x0C00000000000000#64 ∧
      opcodeNumber 0x0C00000000000000#64 = 0x0C) ∧
    (Presents (presenting (fresh big []) 0xFFFFFFFFFFFFFFFF#64) 0xFFFFFFFFFFFFFFFF#64 ∧
      opcodeNumber 0xFFFFFFFFFFFFFFFF#64 = 0xFF) := by unfold Presents; decide

theorem witness_ReservedBitsFault :
    Presents (presenting (fresh big []) 0x0100000000000100#64) 0x0100000000000100#64 ∧
    (reservedSet 0x0100000000000100#64 ∧ reservedSet 0x0280000000000000#64 ∧ reservedSet 0x0300000100000000#64 ∧
      reservedSet 0x0401000000000000#64 ∧ reservedSet 0x0580000000000000#64 ∧ reservedSet 0x0600000000000001#64 ∧
      reservedSet 0x0A01000000000000#64 ∧ reservedSet 0x0B80000000000000#64) := by
  unfold Presents reservedSet; decide

/-- A word of each clause, a stopped block, and a presented word of each kind. -/
theorem witness_DecodingFollowsTheProcedure :
    (opcodeNumber 0#64 < 1 ∧ 0x0B < opcodeNumber 0x0C00000000000000#64) ∧
    (opcodeNumber 0x0300000100000000#64 = 3 ∧ reservedSet 0x0300000100000000#64) ∧
    (opcodeNumber 0x0AFF000000000000#64 = 10 ∧ ¬ reservedSet 0x0A00FFFFFFFFFFFF#64 ∧
      operationOf 0x0A00FFFFFFFFFFFF#64 = .sendRun 0xFFFFFF#24 0xFFFFFF#24) ∧
    ({ fresh big [] with fault := 2#8 } : State).fault ≠ 0#8 ∧
    (Presents (presenting (fresh big []) 0#64) 0#64 ∧ decode 0#64 = .illegal .opcode) ∧
    (Presents (presenting (fresh big []) 0x0700000000000000#64) 0x0700000000000000#64 ∧
      decode 0x0700000000000000#64 = .legal .flush) := by
  unfold Presents reservedSet; decide

theorem witness_AssembledLinesMeanTheirOperations :
    (AsmLine.pixel (-32768) 32767 65535).wf big = true ∧ (AsmLine.pixel (-32769) 0 0).wf big = false := by decide

theorem witness_StepRunsDecodedOperation :
    Presents (presenting (fresh big []) 0x0B00000000000000#64) 0x0B00000000000000#64 ∧
    decode 0x0B00000000000000#64 = .legal .probe := by unfold Presents; decide

theorem witness_StoppedBlockTakesNoStep : ({ fresh big [] with fault := 2#8 } : State).fault ≠ 0#8 := by decide

theorem witness_BlockWaitsForAWord : (fresh big []).fault = 0#8 ∧ (fresh big []).program.length ≤ (fresh big []).pos := by
  decide

/-- A word that completes, and a word that faults. -/
theorem witness_StepInterface :
    (Presents (presenting (fresh big []) 0x0B00000000000000#64) 0x0B00000000000000#64 ∧
      left State.fault (step (presenting (fresh big []) 0x0B00000000000000#64)) = some 0#8) ∧
    (Presents (presenting (fresh big []) 0x0600000000000000#64) 0x0600000000000000#64 ∧
      left State.fault (step (presenting (fresh big []) 0x0600000000000000#64)) = some 2#8) := by
  unfold Presents; decide

/-- An operation of each kind of row; the operation on OK that does not end with OK; an operation that faults. -/
theorem witness_OperationsWriteOnlyTheirColumns :
    (∃ t, exec (.setRotation 1#8) (fresh big []) = .next t) ∧ (∃ t, exec .probe (fresh big []) = .next t) ∧
    (∃ t, exec (.resolve 200#16 0#16) (fresh big []) = .next t ∧ t.status ≠ .ok) ∧
    (∃ t, exec .clear (fresh big []) = .next t ∧ t.fault ≠ (fresh big []).fault) :=
  ⟨⟨_, rfl⟩, ⟨_, rfl⟩, ⟨_, rfl, by decide⟩, ⟨_, rfl, by decide⟩⟩

theorem witness_OperationsKeepConfigurationAndWords :
    (∃ t, exec (.sendCmd 1#8) (ready big [] [ans 1 0]) = .next t) ∧ (columns (.resolve 0#16 0#16)).trace = false ∧
    ∃ t, exec (.resolve 0#16 0#16) (ready big [] [ans 1 0]) = .next t := ⟨⟨_, rfl⟩, rfl, ⟨_, rfl⟩⟩

/-- The last pixel of the panel, a coordinate outside it, PSET_RAW and CLEAR. -/
theorem witness_FramebufferStoresStayInPlace :
    ((∃ t, exec (.pixel 1#16 127#16 63#16) (ready big [] []) = .next t) ∧
      resolvePanel big (sint16 127#16) (sint16 63#16) 0#8 = some ⟨127, 63⟩) ∧
    ((∃ t, exec (.pixel 1#16 128#16 63#16) (ready big [] []) = .next t) ∧
      resolvePanel big (sint16 128#16) (sint16 63#16) 0#8 = none) ∧
    (∃ t, exec (.psetRaw 1#16 127#16 63#16) (ready big [] []) = .next t) ∧
    (∃ t, exec .clear (ready small [] []) = .next t) :=
  ⟨⟨⟨_, rfl⟩, by decide⟩, ⟨⟨_, rfl⟩, by decide⟩, ⟨_, rfl⟩, ⟨_, rfl⟩⟩

/-- Each code of the table, and an operation that raises none. -/
theorem witness_FaultsAreExactlyTheTables :
    faultCause .flush (fresh big []) = some 2#8 ∧ faultCause (.psetRaw 1#16 128#16 0#16) (ready big [] []) = some 3#8 ∧
    faultCause (.sendRun 1024#24 1#24) (ready big [] []) = some 3#8 ∧
    faultCause (.sendData 0#8) (fresh big []) = some 4#8 ∧
    faultCause (.sendRun 1024#24 0#24) (ready big [] []) = none ∧ (fresh big []).fault = 0#8 := by decide

theorem witness_StatusesAreTheTables :
    faultCause (.sendRun 1024#24 0#24) (ready big [] []) = none ∧
    ∃ t, exec (.sendRun 1024#24 0#24) (ready big [] []) = .next t := ⟨by decide, ⟨_, rfl⟩⟩

/-- One step that writes memory and one that writes the trace, from states that meet every invariant. -/
theorem witness_StepKeepsMemoryCanonical :
    MemoryOk (presenting (ready big [(0, 1#8)] []) 0x05000001007F003F#64) ∧
    ∃ t, step (presenting (ready big [(0, 1#8)] []) 0x05000001007F003F#64) = .next t := ⟨by decide, ⟨_, rfl⟩⟩

theorem witness_StepKeepsLifecycle :
    LifecycleOk (presenting (fresh big plenty) 0x010000000000003F#64) ∧
    ∃ t, step (presenting (fresh big plenty) 0x010000000000003F#64) = .next t := ⟨by decide, ⟨_, rfl⟩⟩

theorem witness_StepKeepsTraceWellFramed :
    LifecycleOk (presenting (ready big [] plenty) 0x08000000000000AF#64) ∧
    WellFramed 9 (presenting (ready big [] plenty) 0x08000000000000AF#64).trace ∧
    ∃ t, step (presenting (ready big [] plenty) 0x08000000000000AF#64) = .next t :=
  ⟨by decide, ⟨[], by simp, rfl⟩, ⟨_, rfl⟩⟩

theorem witness_StepKeepsFaultCode :
    FaultOk (presenting (fresh big []) 0#64) ∧ ∃ t, step (presenting (fresh big []) 0#64) = .next t :=
  ⟨by decide, ⟨_, rfl⟩⟩

theorem witness_RunsKeepInvariants :
    MemoryOk (presenting (fresh big []) 0x0200000000000001#64) ∧
    LifecycleOk (presenting (fresh big []) 0x0200000000000001#64) ∧
    FaultOk (presenting (fresh big []) 0x0200000000000001#64) ∧
    WellFramed 9 (presenting (fresh big []) 0x0200000000000001#64).trace ∧
    ∃ t, Sys2Proof.core.run 1 (presenting (fresh big []) 0x0200000000000001#64) = .next t :=
  ⟨by decide, by decide, by decide, ⟨[], by simp, rfl⟩, ⟨_, rfl⟩⟩

/-- The last byte of FB, and the first index outside it. -/
theorem witness_HostMovesKeepInvariants :
    MemoryOk (ready big [(1023, 7#8)] []) ∧ LifecycleOk (ready big [(1023, 7#8)] []) ∧
    (1023 < big.fbLen ∧ ¬ 1024 < big.fbLen) := by decide

/-- SETUP that ends ready, SETUP that fails, an illegal address, and another operation. -/
theorem witness_LifecycleTransitions :
    LifecycleOk (fresh big plenty) ∧
    left State.phase (exec (.setup 0x3C#8) (fresh big plenty)) = some (some .ready) ∧
    left State.phase (exec (.setup 0x3F#8) (fresh big (ans 31 1 :: plenty))) = some (some .configured) ∧
    left State.phase (exec (.setup 0x40#8) (fresh big plenty)) = some (some .unconfigured) ∧
    left State.phase (exec .clear (ready small [] [])) = some (some .ready) := by decide

theorem witness_WhatWorksAfterReset :
    (fresh big plenty).mode = .uninit ∧ (fresh big plenty).ready = false ∧ (fresh big plenty).fault = 0#8 ∧
    busItems (fresh big plenty).cfg.initScript ≤ (fresh big plenty).answers.length := by decide

/-- The last corner of each canvas (one clause of the statement for each rotation). -/
theorem witness_ResolveStaysInActiveArea :
    inCanvas big 127 63 0#8 ∧ inCanvas big 63 127 1#8 ∧ inCanvas big 127 63 2#8 ∧ inCanvas big 63 127 3#8 := by
  unfold inCanvas; decide

theorem witness_ResolveIsABijection :
    (3#8).toNat < 4 ∧ (127 < big.aw ∧ 63 < big.ah) ∧ inCanvas big 63 127 3#8 ∧
    resolvePanel big 63 127 3#8 = some ⟨127, 0⟩ := by unfold inCanvas; decide

/-- The first coordinates outside the canvas on each axis, and the first code that is no rotation. -/
theorem witness_ResolveRejectsTheRest :
    (¬ inCanvas big 128 63 0#8 ∧ ¬ inCanvas big 127 64 2#8 ∧ ¬ inCanvas big 64 0 1#8 ∧ ¬ inCanvas big (-1) 0 0#8) ∧
    4 ≤ (4#8).toNat := by unfold inCanvas; decide

theorem witness_ResolveReportsPanelCoordinate :
    inCanvas (fresh big []).cfg.geometry (127#16).toInt (63#16).toInt (fresh big []).rot ∧
    ¬ inCanvas (fresh big []).cfg.geometry (0xFFFF#16).toInt (0#16).toInt (fresh big []).rot := by
  unfold inCanvas; decide

theorem witness_SetRotationStoresTheCode :
    4 ≤ ({ ready big [] [] with rot := 4#8 } : State).rot.toNat ∧ (ready big [] []).ready = true ∧
    (ready big [] []).mode = .buffered ∧
    (opcodeNumber 0x0200000000000100#64 = 2 ∧ reservedSet 0x0200000000000100#64) := by unfold reservedSet; decide

/-- The last column and the last padding row; the last byte and its highest bit. -/
theorem witness_PixelMapIsABijection :
    (9 < padded.aw ∧ 23 < 8 * padded.npages ∧ ¬ 24 < 8 * padded.npages) ∧ (29 < padded.fbLen ∧ 7 < 8) := by decide

theorem witness_BitWritesDoNotInterfere :
    (9 < padded.aw ∧ 19 < padded.ah) ∧ (23 < 8 * padded.npages ∧ (⟨9, 23⟩ : PanelPos) ≠ ⟨9, 19⟩) ∧
    (⟨0, 0⟩ : PanelPos) ≠ ⟨9, 19⟩ := by decide

theorem witness_BitWriteWritesItsBit :
    9 < (ready padded [] []).cfg.geometry.aw ∧ 19 < (ready padded [] []).cfg.geometry.ah := by decide

theorem witness_PsetRawWritesOneBit :
    (ready padded [] []).ready = true ∧ (ready padded [] []).mode = .buffered ∧
    ((9#16).toNat < padded.aw ∧ (19#16).toNat < padded.ah) ∧ padded.aw ≤ (10#16).toNat ∧ padded.ah ≤ (20#16).toNat := by
  decide

theorem witness_PixelWritesItsMappedBit :
    (ready big [] []).ready = true ∧ (ready big [] []).mode = .buffered ∧
    inCanvas big (127#16).toInt (63#16).toInt (ready big [] []).rot ∧
    ¬ inCanvas big (128#16).toInt (63#16).toInt (ready big [] []).rot := by unfold inCanvas; decide

theorem witness_ClearZeroesTheFramebuffer :
    (ready padded [] []).ready = true ∧ (ready padded [] []).mode = .buffered ∧
    (29 < padded.fbLen ∧ padded.fbLen ≤ 30) := by decide

/-- The first and the last padding row. -/
theorem witness_PaddingBitsAreNotDrawn :
    ((∃ t, exec (.pixel 1#16 9#16 19#16) (ready padded [] []) = .next t) ∧
      ∃ t, exec (.psetRaw 1#16 9#16 19#16) (ready padded [] []) = .next t) ∧
    9 < padded.aw ∧ padded.ah ≤ 20 ∧ 23 < 8 * padded.npages := ⟨⟨⟨_, rfl⟩, ⟨_, rfl⟩⟩, by decide⟩

theorem witness_UnbufferedModeIsUnsupported :
    ({ ready big [] [] with mode := .unbuffered } : State).ready = true ∧
    ({ ready big [] [] with mode := .unbuffered } : State).mode = .unbuffered := by decide

/-- SEND_CMD, SEND_DATA and PROBE: unbound, bound with an answer, and a reserved bit. -/
theorem witness_SendCmdFramesACommand :
    (fresh big []).mode = .uninit ∧
    ((ready big [] [ans 1 0]).mode ≠ .uninit ∧ (ready big [] [ans 1 0]).answers = ans 1 0 :: []) ∧
    (opcodeNumber 0x0800000000000100#64 = 8 ∧ reservedSet 0x0800000000000100#64) := by unfold reservedSet; decide

theorem witness_SendDataFramesAByte :
    (fresh big []).mode = .uninit ∧
    ((ready big [] [ans 1 5]).mode ≠ .uninit ∧ (ready big [] [ans 1 5]).answers = ans 1 5 :: []) ∧
    (opcodeNumber 0x0980000000000000#64 = 9 ∧ reservedSet 0x0980000000000000#64) := by unfold reservedSet; decide

theorem witness_ProbeReportsAcknowledge :
    (fresh big []).mode = .uninit ∧
    ((ready big [] [ans 0 0]).mode ≠ .uninit ∧ (ready big [] [ans 0 0]).answers = ans 0 0 :: []) ∧
    (opcodeNumber 0x0B00000000000001#64 = 11 ∧ reservedSet 0x0B00000000000001#64) := by unfold reservedSet; decide

/-- A run that passes in two transactions, and one that fails in its second. -/
theorem witness_DataRunProperties :
    (∃ r, frameRun 0x3C#7 (filled 0 4 1#8) 0 4 [ans 3 0, ans 3 0] = some r ∧ r.failed = false) ∧
    (∃ r, frameRun 0x3C#7 (filled 0 4 1#8) 0 4 [ans 3 0, ans 3 5] = some r ∧ r.failed = true) :=
  ⟨⟨_, rfl, rfl⟩, ⟨_, rfl, rfl⟩⟩

/-- The whole of FB. -/
theorem witness_SendRunSendsItsSlice :
    (ready small [] plenty).mode ≠ .uninit ∧ (0#24).toNat + (8#24).toNat ≤ small.fbLen ∧
    AllProgress (ready small [] plenty).answers (8#24).toNat := by unfold AllProgress; decide

theorem witness_SendRunStopsAtFirstFailure :
    (ready small [] [ans 3 0, ans 31 5]).mode ≠ .uninit ∧ (0#24).toNat + (8#24).toNat ≤ small.fbLen ∧
    (ready small [] [ans 3 0, ans 31 5]).answers = [ans 3 0] ++ ans 31 5 :: [] ∧
    (∀ t ∈ [ans 3 0], t.status = 0) ∧ (ans 31 5).status ≠ 0 ∧
    ([ans 3 0].map TxAnswer.payload).sum < (8#24).toNat := by decide

theorem witness_SendRunCorners :
    (ready small [] []).mode ≠ .uninit ∧ ((0#24).toNat = 0 ∧ (8#24).toNat ≤ small.fbLen) ∧
    small.fbLen < (8#24).toNat + (1#24).toNat := by decide

theorem witness_SendRunWithoutProgressHangs :
    (ready small [] [ans 0 0, ans 0 0]).mode ≠ .uninit ∧ (0#24).toNat + (8#24).toNat ≤ small.fbLen ∧
    (∀ t ∈ [ans 0 0, ans 0 0], t.status = 0) ∧ ([ans 0 0, ans 0 0].map TxAnswer.payload).sum < (8#24).toNat := by decide

theorem witness_SetupRejectsIllegalAddress :
    ¬ (0x3B#8 = 0x3C#8 ∨ 0x3B#8 = 0x3D#8 ∨ 0x3B#8 = 0x3E#8 ∨ 0x3B#8 = 0x3F#8) ∧
    ¬ (0x40#8 = 0x3C#8 ∨ 0x40#8 = 0x3D#8 ∨ 0x40#8 = 0x3E#8 ∨ 0x40#8 = 0x3F#8) ∧
    ¬ (0xBC#8 = 0x3C#8 ∨ 0xBC#8 = 0x3D#8 ∨ 0xBC#8 = 0x3E#8 ∨ 0xBC#8 = 0x3F#8) := by decide

theorem witness_SetupSucceeds :
    (0x3F#8 = 0x3C#8 ∨ 0x3F#8 = 0x3D#8 ∨ 0x3F#8 = 0x3E#8 ∨ 0x3F#8 = 0x3F#8) ∧
    AllSucceed (fresh big plenty).answers (busItems (fresh big plenty).cfg.initScript) := by unfold AllSucceed; decide

theorem witness_SetupAccumulatesFailures :
    (fresh big (ans 1 1 :: plenty)).cfg.errPolicy = .accumulate ∧
    busItems (fresh big (ans 1 1 :: plenty)).cfg.initScript ≤ (fresh big (ans 1 1 :: plenty)).answers.length ∧
    ∃ t ∈ (fresh big (ans 1 1 :: plenty)).answers.take (busItems (fresh big (ans 1 1 :: plenty)).cfg.initScript),
      t.status ≠ 0 := by decide

/-- The second item of the script fails. -/
theorem witness_SetupFailsFast :
    (failFast (fresh big [ans 1 0, ans 1 1])).cfg.errPolicy = .failFast ∧
    (failFast (fresh big [ans 1 0, ans 1 1])).cfg.initScript =
      [.cmd 0x11#8] ++ .cmd 0x12#8 :: [.wait 50, .cmd 0x13#8, .data 0x14#8] ∧
    busItems [.cmd 0x12#8] = 1 ∧ AllSucceed [ans 1 0, ans 1 1] (busItems [.cmd 0x11#8]) ∧
    ([ans 1 0, ans 1 1][busItems [.cmd 0x11#8]]? = some (ans 1 1) ∧ (ans 1 1).status ≠ 0) := by
  unfold AllSucceed; decide

theorem witness_SetupWithoutAnswersHangs :
    (fresh big [ans 1 0]).answers.length < busItems (fresh big [ans 1 0]).cfg.initScript ∧
    ∀ t ∈ (fresh big [ans 1 0]).answers, t.status = 0 := by decide

theorem witness_SleepOutIsFollowedByItsWait :
    initScriptWf (fresh big plenty).cfg.sleepOut (fresh big plenty).cfg.initScript = true ∧
    ∃ t, exec (.setup 0x3C#8) (fresh big plenty) = .next t ∧ t.status = .ok := ⟨by decide, ⟨_, rfl, rfl⟩⟩

theorem witness_FailedSetupBlocksDrawing :
    ∃ t, exec (.setup 0x3C#8) (fresh big (ans 1 1 :: plenty)) = .next t ∧ t.status = .ioError := ⟨_, rfl, rfl⟩

theorem witness_FlushSendsTheFramebuffer :
    (ready small [] plenty).ready = true ∧ (ready small [] plenty).mode = .buffered ∧
    3 = busItems ((ready small [] plenty).cfg.flushPrefix.map PrefixItem.toScript) ∧
    AllSucceed (ready small [] plenty).answers 3 ∧ AllProgress ((ready small [] plenty).answers.drop 3) small.fbLen := by
  unfold AllSucceed AllProgress; decide

theorem witness_FlushAccumulatesFailures :
    (ready small [] (ans 1 3 :: plenty)).cfg.errPolicy = .accumulate ∧
    3 = busItems ((ready small [] (ans 1 3 :: plenty)).cfg.flushPrefix.map PrefixItem.toScript) ∧
    3 ≤ (ans 1 3 :: plenty).length ∧ (∃ t ∈ (ans 1 3 :: plenty).take 3, t.status ≠ 0) ∧
    AllProgress ((ans 1 3 :: plenty).drop 3) small.fbLen := by unfold AllProgress; decide

/-- The second item of the prefix fails. -/
theorem witness_FlushFailsFast :
    (failFast (ready small [] [ans 1 0, ans 1 3])).cfg.errPolicy = .failFast ∧
    (failFast (ready small [] [ans 1 0, ans 1 3])).cfg.flushPrefix =
      [.cmd 0x15#8] ++ .data 0x16#8 :: [.cmd 0x17#8] ∧
    AllSucceed [ans 1 0, ans 1 3] 1 ∧ ([ans 1 0, ans 1 3][1]? = some (ans 1 3) ∧ (ans 1 3).status ≠ 0) := by
  unfold AllSucceed; decide

/-- Two flushes that end with OK; the answers consumed are the same both times, and accept every byte of the prefix. -/
theorem witness_FlushIsIdempotent :
    ∃ t u, exec .flush (ready small [] (List.replicate 8 (ans 31 0))) = .next t ∧ t.status = .ok ∧
      exec .flush t = .next u ∧ u.status = .ok ∧
      (∀ x ∈ t.answers.take 3, 1 ≤ x.disc ∧ 1 ≤ x.payload) ∧
      List.replicate 8 (ans 31 0) = List.replicate 4 (ans 31 0) ++ t.answers ∧
      t.answers = List.replicate 4 (ans 31 0) ++ u.answers :=
  ⟨_, _, rfl, rfl, rfl, rfl, by decide, by decide, by decide⟩

end Sys2Proof.Tests
end

section
/-!
PROOFS. The state family. `Effect i s t` says once, for all operations, which state a completed operation `i` may leave;
`exec_effect` ties it to `exec`, `step_effect` to `step`. The frame statements (10_state R21, R31, R32, R34) and the
invariants of the registers (R22 to R24, R28, 44_sequencer R170) are read off it, one short case split each.
-/

namespace Sys2Proof.Machine

open Sys2Proof.Claims

/-! ## What an operation can leave -/

/-- The states operation `i` may leave, by the columns of 10_state R34 that it writes. -/
inductive Effect (i : Instr) (s : State) : State → Prop
  /-- A fault writes FAULT and nothing else (60_exceptions R203). -/
  | faulted (c : FaultCode) : Effect i s { s with fault := c.code }
  /-- The operation completes and writes STATUS alone. -/
  | statusOnly (st : Status) : Effect i s { s with status := st, pos := s.pos + 1 }
  /-- SET_ROTATION (42_transform R125). -/
  | rotated (hrot : (columns i).rot = true) (b : Byte) :
      Effect i s { s with rot := b, status := .ok, pos := s.pos + 1 }
  /-- PIXEL, PSET_RAW and CLEAR write FB, on OK only. -/
  | stored (hfb : (columns i).fb = true) (m : Memory) :
      Effect i s { s with fb := m, status := .ok, pos := s.pos + 1 }
  /-- RESOLVE, and PROBE of an unbound block, write RESULT, on OK only. -/
  | reported (hresult : (columns i).result = true) (v : BitVec 32) :
      Effect i s { s with result := v, status := .ok, pos := s.pos + 1 }
  /-- PROBE of a bound block writes RESULT and TRACE (41_protocol R109). -/
  | probed (hprobe : i = .probe) (hbound : s.mode ≠ .uninit) (v : BitVec 32) (es : List Event)
      (ts : List TxAnswer) (hts : ts <:+ s.answers) :
      Effect i s { s with
        result := v, status := .ok, pos := s.pos + 1, trace := s.trace ++ es, answers := ts }
  /-- FLUSH and the SEND operations write TRACE. -/
  | sent (htrace : (columns i).trace = true) (hresult : (columns i).result = false) (st : Status) (es : List Event)
      (ts : List TxAnswer) (hts : ts <:+ s.answers) :
      Effect i s { s with status := st, pos := s.pos + 1, trace := s.trace ++ es, answers := ts }
  /-- SETUP with a legal address binds the block and writes TRACE (44_sequencer R160). -/
  | bound (a : Byte) (hsetup : i = .setup a) (haddr : legalBusAddr (addrBits a)) (ready : Bool) (st : Status)
      (es : List Event) (ts : List TxAnswer) (hts : ts <:+ s.answers) :
      Effect i s { s with
        mode := .buffered, ready := ready, addr := addrBits a, status := st, pos := s.pos + 1
        trace := s.trace ++ es, answers := ts }

theorem frameByte_rest (a : BusAddr) (d b : Byte) (ts : List TxAnswer) (r : Sent)
    (h : frameByte a d b ts = some r) : r.rest <:+ ts := by
  obtain ⟨t, rest, rfl, rfl⟩ := frameByte_eq_some a d b ts r h
  exact List.suffix_cons t rest

theorem execSetup_effect (a : Byte) (s t : State) (h : execSetup a s = .next t) : Effect (.setup a) s t := by
  obtain ⟨-, rfl⟩ | ⟨ha, r, hr, rfl⟩ := execSetup_eq_next a s t h
  · exact .statusOnly .invalidArgument
  · rw [List.append_assoc, List.append_assoc]
    exact .bound a rfl (legalBusAddr_addrBits a ha) _ _ _ _ (runScript_rest _ _ _ _ _ _ hr)

theorem execResolve_effect (x y : Half) (s t : State) (h : execResolve x y s = .next t) :
    Effect (.resolve x y) s t := by
  obtain ⟨-, rfl⟩ | ⟨p, -, rfl⟩ := execResolve_eq_next x y s t h
  · exact .statusOnly .invalidArgument
  · exact .reported rfl p.packed

theorem execPixel_effect (c x y : Half) (s t : State) (h : execPixel c x y s = .next t) :
    Effect (.pixel c x y) s t := by
  obtain ⟨-, rfl⟩ | ⟨-, -, rfl⟩ | ⟨-, -, -, rfl⟩ | ⟨-, -, p, -, rfl⟩ := execPixel_eq_next c x y s t h
  · exact .faulted .notReady
  · exact .statusOnly .unsupported
  · exact .statusOnly .invalidArgument
  · exact .stored rfl _

theorem execPsetRaw_effect (c x y : Half) (s t : State) (h : execPsetRaw c x y s = .next t) :
    Effect (.psetRaw c x y) s t := by
  obtain ⟨-, rfl⟩ | ⟨-, -, rfl⟩ | ⟨-, -, -, rfl⟩ | ⟨-, -, -, -, rfl⟩ := execPsetRaw_eq_next c x y s t h
  · exact .faulted .notReady
  · exact .statusOnly .unsupported
  · exact .faulted .fbRange
  · exact .stored rfl _

theorem execClear_effect (s t : State) (h : execClear s = .next t) : Effect .clear s t := by
  obtain ⟨-, rfl⟩ | ⟨-, -, rfl⟩ | ⟨-, -, rfl⟩ := execClear_eq_next s t h
  · exact .faulted .notReady
  · exact .statusOnly .unsupported
  · exact .stored rfl _

theorem execFlush_effect (s t : State) (h : execFlush s = .next t) : Effect .flush s t := by
  obtain ⟨-, rfl⟩ | ⟨-, -, rfl⟩ | ⟨-, -, r, hr, rfl⟩ := execFlush_eq_next s t h
  · exact .faulted .notReady
  · exact .statusOnly .unsupported
  · exact .sent rfl rfl _ _ _ (flushTraffic_rest _ _ _ _ _ _ _ hr)

theorem execSendCmd_effect (b : Byte) (s t : State) (h : execSendCmd b s = .next t) :
    Effect (.sendCmd b) s t := by
  obtain ⟨-, rfl⟩ | ⟨-, r, hr, rfl⟩ := execSendCmd_eq_next b s t h
  · exact .faulted .unbound
  · exact .sent rfl rfl _ _ _ (frameByte_rest _ _ _ _ _ hr)

theorem execSendData_effect (b : Byte) (s t : State) (h : execSendData b s = .next t) :
    Effect (.sendData b) s t := by
  obtain ⟨-, rfl⟩ | ⟨-, r, hr, rfl⟩ := execSendData_eq_next b s t h
  · exact .faulted .unbound
  · exact .sent rfl rfl _ _ _ (frameByte_rest _ _ _ _ _ hr)

theorem execSendRun_effect (off len : Field24) (s t : State) (h : execSendRun off len s = .next t) :
    Effect (.sendRun off len) s t := by
  obtain ⟨-, rfl⟩ | ⟨-, -, rfl⟩ | ⟨-, -, r, hr, rfl⟩ := execSendRun_eq_next off len s t h
  · exact .faulted .unbound
  · exact .faulted .fbRange
  · exact .sent rfl rfl _ _ _ (runLoop_rest _ _ _ _ _ _ hr)

theorem execProbe_effect (s t : State) (h : execProbe s = .next t) : Effect .probe s t := by
  obtain ⟨-, rfl⟩ | ⟨hm, x, rest, hx, rfl⟩ := execProbe_eq_next s t h
  · exact .reported rfl 0#32
  · exact .probed rfl hm _ _ _ (hx ▸ List.suffix_cons x rest)

/-- Every state that `exec` answers is an effect of the operation. -/
theorem exec_effect {i : Instr} {s t : State} (h : exec i s = .next t) : Effect i s t := by
  cases i with
  | setup a => exact execSetup_effect a s t h
  | setRotation b =>
    obtain rfl := (finish_eq_next _ _ _).1 h
    exact .rotated rfl b
  | resolve x y => exact execResolve_effect x y s t h
  | pixel c x y => exact execPixel_effect c x y s t h
  | psetRaw c x y => exact execPsetRaw_effect c x y s t h
  | clear => exact execClear_effect s t h
  | flush => exact execFlush_effect s t h
  | sendCmd b => exact execSendCmd_effect b s t h
  | sendData b => exact execSendData_effect b s t h
  | sendRun off len => exact execSendRun_effect off len s t h
  | probe => exact execProbe_effect s t h

/-- A step waits with no word presented, or leaves an effect of some operation: F_ILLEGAL is the effect of any. -/
theorem step_effect {s t : State} (h : step s = .next t) :
    s.fault = 0#8 ∧ ((s.nextWord = none ∧ t = s) ∨ ∃ i, Effect i s t) := by
  obtain ⟨hs, ⟨hw, rfl⟩ | ⟨w, why, -, -, rfl⟩ | ⟨w, i, -, -, hi⟩⟩ := step_eq_next s t h
  · exact ⟨hs, .inl ⟨hw, rfl⟩⟩
  · exact ⟨hs, .inr ⟨.clear, .faulted .illegal⟩⟩
  · exact ⟨hs, .inr ⟨i, exec_effect hi⟩⟩

/-! ## What an effect leaves unchanged -/

section Frame

variable {i : Instr} {s t : State}

theorem Effect.cfg_eq (e : Effect i s t) : t.cfg = s.cfg := by cases e <;> rfl

theorem Effect.program_eq (e : Effect i s t) : t.program = s.program := by cases e <;> rfl

/-- TRACE is append-only (10_state R31). -/
theorem Effect.trace_prefix (e : Effect i s t) : s.trace <+: t.trace := by
  cases e with
  | probed | sent | bound => exact List.prefix_append _ _
  | _ => exact List.prefix_rfl

/-- The transport's answers are consumed in order (log 4). -/
theorem Effect.answers_suffix (e : Effect i s t) : t.answers <:+ s.answers := by
  cases e with
  | probed _ _ _ _ _ hts | sent _ _ _ _ _ hts | bound _ _ _ _ _ _ _ hts => exact hts
  | _ => exact List.suffix_rfl

/-- An operation without the TRACE column emits nothing and consumes no answer. -/
theorem Effect.trace_answers_eq (e : Effect i s t) (h : (columns i).trace = false) :
    t.trace = s.trace ∧ t.answers = s.answers := by
  cases e with
  | probed hprobe => subst hprobe; cases h
  | sent htrace => rw [htrace] at h; cases h
  | bound _ hsetup => subst hsetup; cases h
  | _ => exact ⟨rfl, rfl⟩

/-- PROBE of an unbound block emits nothing (41_protocol R109). -/
theorem Effect.trace_eq_of_unbound_probe (e : Effect i s t) (hi : i = .probe) (hm : s.mode = .uninit) :
    t.trace = s.trace := by
  cases e with
  | probed _ hbound => exact absurd hm hbound
  | sent _ hresult => subst hi; cases hresult
  | bound _ hsetup => cases hi.symm.trans hsetup
  | _ => rfl

theorem Effect.rot_eq (e : Effect i s t) (h : (columns i).rot = false) : t.rot = s.rot := by
  cases e with
  | rotated hrot => rw [hrot] at h; cases h
  | _ => rfl

theorem Effect.result_eq (e : Effect i s t) (h : (columns i).result = false) : t.result = s.result := by
  cases e with
  | reported hresult => rw [hresult] at h; cases h
  | probed hprobe => subst hprobe; cases h
  | _ => rfl

theorem Effect.fb_eq (e : Effect i s t) (h : (columns i).fb = false) : t.fb = s.fb := by
  cases e with
  | stored hfb => rw [hfb] at h; cases h
  | _ => rfl

/-- RESULT and FB are written on OK only (10_state R34). -/
theorem Effect.result_fb_eq_of_not_ok (e : Effect i s t) (h : t.status ≠ .ok) :
    t.result = s.result ∧ t.fb = s.fb := by
  cases e with
  | stored | reported | probed => exact absurd rfl h
  | _ => exact ⟨rfl, rfl⟩

/-- MODE, READY and ADDR are as before, or SETUP has bound the block to a legal address (44_sequencer R160). -/
theorem Effect.lifecycle (e : Effect i s t) :
    (t.mode = s.mode ∧ t.ready = s.ready ∧ t.addr = s.addr) ∨
    ((∃ a, i = .setup a) ∧ t.mode = .buffered ∧ legalBusAddr t.addr) := by
  cases e with
  | bound a hsetup haddr => exact .inr ⟨⟨a, hsetup⟩, rfl, haddr⟩
  | _ => exact .inl ⟨rfl, rfl, rfl⟩

theorem Effect.mode_ready_addr_eq (e : Effect i s t) (h : (columns i).modeReadyAddr = false) :
    t.mode = s.mode ∧ t.ready = s.ready ∧ t.addr = s.addr := by
  obtain hsame | ⟨⟨a, rfl⟩, -, -⟩ := e.lifecycle
  · exact hsame
  · cases h

/-- A fault writes its code and keeps the rest, the position too; a completed operation keeps FAULT and moves the
position by 1 (10_state R21, 60_exceptions R203). -/
theorem Effect.fault_pos (e : Effect i s t) :
    (∃ c : FaultCode, t = { s with fault := c.code }) ∨ (t.fault = s.fault ∧ t.pos = s.pos + 1) := by
  cases e with
  | faulted c => exact .inl ⟨c, rfl⟩
  | _ => exact .inr ⟨rfl, rfl⟩

/-- If FAULT changes, nothing else does (60_exceptions R203). -/
theorem Effect.eq_of_fault_ne (e : Effect i s t) (h : t.fault ≠ s.fault) : t = { s with fault := t.fault } := by
  obtain ⟨c, rfl⟩ | ⟨hsame, -⟩ := e.fault_pos
  · rfl
  · exact absurd hsame h

/-- From a running block the position moves by 1 unless a fault stands (10_state R21). -/
theorem Effect.pos_eq (e : Effect i s t) (hs : s.fault = 0#8) :
    t.pos = if t.fault = 0#8 then s.pos + 1 else s.pos := by
  obtain ⟨c, rfl⟩ | ⟨hf, hp⟩ := e.fault_pos
  · exact (if_neg c.code_ne_zero).symm
  · rw [hp, if_pos (hf.trans hs)]

end Frame

/-! ## The obligations -/

theorem faultOk_of_faultCode (s : State) (c : FaultCode) : FaultOk { s with fault := c.code } := by
  cases c <;> simp [FaultOk, FaultCode.code]

theorem lifecycleOk_of_registers_eq {s t : State} (hs : LifecycleOk s)
    (h : t.mode = s.mode ∧ t.ready = s.ready ∧ t.addr = s.addr) : LifecycleOk t := by
  obtain ⟨hmode, hready, haddr⟩ := h
  rw [LifecycleOk, hmode, hready, haddr]
  exact hs

theorem lifecycleOk_of_bound {t : State} (hmode : t.mode = .buffered) (haddr : legalBusAddr t.addr) :
    LifecycleOk t := by
  refine ⟨.inr hmode, fun hm => ?_, fun _ => haddr⟩
  rw [hmode] at hm
  cases hm

/-- Settles O19: a step keeps the three registers, or SETUP leaves a bound block with a legal address. -/
theorem stepKeepsLifecycle : Obligations.StepKeepsLifecycle := by
  intro s t hs h
  obtain ⟨-, ⟨-, rfl⟩ | ⟨i, e⟩⟩ := step_effect h
  · exact hs
  · obtain hsame | ⟨-, hmode, haddr⟩ := e.lifecycle
    · exact lifecycleOk_of_registers_eq hs hsame
    · exact lifecycleOk_of_bound hmode haddr

/-- Settles O12: a word presented rules out the wait, and every effect has the interface's frame. -/
theorem stepInterface : Obligations.StepInterface := by
  intro s t w hw h
  obtain ⟨hfault, hword⟩ := hw
  obtain ⟨-, ⟨hnone, -⟩ | ⟨i, e⟩⟩ := step_effect h
  · cases hnone.symm.trans hword
  · exact ⟨e.cfg_eq, e.program_eq, e.trace_prefix, e.answers_suffix, e.pos_eq hfault⟩

/-- Settles O13, column by column. -/
theorem operationsWriteOnlyTheirColumns : Obligations.OperationsWriteOnlyTheirColumns := by
  intro i s t h
  have e := exec_effect h
  refine ⟨e.mode_ready_addr_eq, e.rot_eq, e.result_eq, fun hc a => ?_, fun hc => (e.trace_answers_eq hc).1,
    e.trace_eq_of_unbound_probe, fun _ hst => ?_, e.eq_of_fault_ne⟩
  · rw [e.fb_eq hc]
  · obtain ⟨hresult, hfb⟩ := e.result_fb_eq_of_not_ok hst
    exact ⟨hresult, fun a => by rw [hfb]⟩

/-- Settles O14. -/
theorem operationsKeepConfigurationAndWords : Obligations.OperationsKeepConfigurationAndWords := by
  intro i s t h
  have e := exec_effect h
  exact ⟨e.cfg_eq, e.program_eq, e.trace_prefix, e.answers_suffix, fun hc => (e.trace_answers_eq hc).2⟩

/-- Settles O21: an effect keeps FAULT or writes one of the four codes. -/
theorem stepKeepsFaultCode : Obligations.StepKeepsFaultCode := by
  intro s t hs h
  obtain ⟨-, ⟨-, rfl⟩ | ⟨i, e⟩⟩ := step_effect h
  · exact hs
  · obtain ⟨c, rfl⟩ | ⟨hsame, -⟩ := e.fault_pos
    · exact faultOk_of_faultCode s c
    · rw [FaultOk, hsame]
      exact hs

/-- Settles O22: FB lists nothing, the block is unbound and running, and the trace is empty. -/
theorem resetMeetsInvariants : Obligations.ResetMeetsInvariants := by
  refine ⟨?memory, ?lifecycle, .inl State.reset_fault, WellFramed.nil _⟩
  case memory => exact ⟨List.Pairwise.nil, fun c hc => absurd hc List.not_mem_nil⟩
  case lifecycle => exact ⟨.inl State.reset_mode, fun _ => State.reset_ready, fun h => absurd State.reset_mode h⟩

/-- Settles O26. -/
theorem resetLeavesStatedValues : Obligations.ResetLeavesStatedValues :=
  ⟨State.reset_mode, State.reset_ready, State.reset_rot, State.reset_status, State.reset_result, State.reset_fault,
    State.reset_trace, congrArg Params.errPolicy State.reset_cfg⟩

end Sys2Proof.Machine
end

section
/-!
PROOFS. The memory family. `PanelPos.byteIndex_bitIndex_inj` and `PanelPos.ofBit` make the pixel map of 20_memory R42 a
bijection (R43); `draw_fb` says once what PIXEL and PSET_RAW can do to FB, `exec_memoryOk` and `exec_wellFramed` what every
operation keeps. The invariants along a step, a run and the host's moves are assembled from them.
-/

namespace Sys2Proof.Machine

open Sys2Proof.Claims

/-! ## The pixel map (20_memory R42, R43) -/

theorem Geometry.aw_pos (g : Geometry) : 0 < g.aw := g.ok.1

theorem PanelPos.byteIndex_mod (g : Geometry) (p : PanelPos) (hx : p.xp < g.aw) : p.byteIndex g % g.aw = p.xp := by
  rw [PanelPos.byteIndex, Nat.add_mul_mod_self_right, Nat.mod_eq_of_lt hx]

theorem PanelPos.byteIndex_div (g : Geometry) (p : PanelPos) (hx : p.xp < g.aw) :
    p.byteIndex g / g.aw = p.yp / 8 := by
  rw [PanelPos.byteIndex, Nat.add_mul_div_right _ _ (Geometry.aw_pos g), Nat.div_eq_of_lt hx, Nat.zero_add]

theorem PanelPos.bitIndex_lt (p : PanelPos) : p.bitIndex < 8 := Nat.mod_lt _ (by decide)

/-- Two pixels of the active columns with the same byte and the same bit are one pixel. -/
theorem PanelPos.byteIndex_bitIndex_inj {g : Geometry} {p q : PanelPos} (hp : p.xp < g.aw) (hq : q.xp < g.aw)
    (hbyte : q.byteIndex g = p.byteIndex g) (hbit : q.bitIndex = p.bitIndex) : q = p := by
  have hcol : q.xp = p.xp := by rw [← q.byteIndex_mod g hq, hbyte, p.byteIndex_mod g hp]
  have hpage : q.yp / 8 = p.yp / 8 := by rw [← q.byteIndex_div g hq, hbyte, p.byteIndex_div g hp]
  have hrow : q.yp = p.yp := by
    rw [← Nat.div_add_mod q.yp 8, hpage, show q.yp % 8 = p.yp % 8 from hbit, Nat.div_add_mod]
  exact congrArg₂ PanelPos.mk hcol hrow

/-- The pixel held by bit `k` of the byte at index `i`: the inverse of the map of 20_memory R42. -/
def PanelPos.ofBit (g : Geometry) (i k : Nat) : PanelPos := ⟨i % g.aw, 8 * (i / g.aw) + k⟩

theorem PanelPos.ofBit_xp_lt (g : Geometry) (i k : Nat) : (PanelPos.ofBit g i k).xp < g.aw :=
  Nat.mod_lt _ (Geometry.aw_pos g)

theorem PanelPos.ofBit_yp_lt {g : Geometry} {i k : Nat} (hi : i < g.fbLen) (hk : k < 8) :
    (PanelPos.ofBit g i k).yp < 8 * g.npages := by
  have hpage : i / g.aw < g.npages := Nat.div_lt_of_lt_mul hi
  show 8 * (i / g.aw) + k < 8 * g.npages
  omega

theorem PanelPos.byteIndex_ofBit (g : Geometry) (i : Nat) {k : Nat} (hk : k < 8) :
    (PanelPos.ofBit g i k).byteIndex g = i := by
  have hpage : (8 * (i / g.aw) + k) / 8 = i / g.aw := by omega
  show i % g.aw + (8 * (i / g.aw) + k) / 8 * g.aw = i
  rw [hpage, Nat.mod_add_div']

theorem PanelPos.bitIndex_ofBit (g : Geometry) (i : Nat) {k : Nat} (hk : k < 8) :
    (PanelPos.ofBit g i k).bitIndex = k := by
  show (8 * (i / g.aw) + k) % 8 = k
  omega

/-- A write of one pixel of the active columns leaves every other one as it was. -/
theorem fbReadBit_fbWriteBit_of_ne {p q : PanelPos} {s : State} (on : Bool) (hp : p.xp < s.cfg.geometry.aw)
    (hq : q.xp < s.cfg.geometry.aw) (hne : q ≠ p) : fbReadBit q (fbWriteBit p on s) = fbReadBit q s := by
  simp only [fbReadBit, fbWriteBit_cfg, fbWriteBit_fb]
  by_cases hbyte : q.byteIndex s.cfg.geometry = p.byteIndex s.cfg.geometry
  · have hbit : q.bitIndex ≠ p.bitIndex := fun h => hne (PanelPos.byteIndex_bitIndex_inj hp hq hbyte h)
    rw [hbyte, Memory.read_write_same, setBit_getLsbD _ _ _ _ p.bitIndex_lt, if_neg hbit]
  · rw [Memory.read_write_other _ _ _ _ hbyte]

/-! ## What the drawing operations do to FB -/

/-- A coordinate the transform accepts maps into the active area (42_transform R122). -/
theorem resolvePanel_lt {g : Geometry} {x y : Int} {r : Byte} {p : PanelPos} (h : resolvePanel g x y r = some p) :
    p.xp < g.aw ∧ p.yp < g.ah := by
  unfold resolvePanel at h
  split_ifs at h <;> obtain rfl := Option.some.inj h <;> dsimp only <;> omega

/-- PIXEL and PSET_RAW leave FB as it was, or write one pixel of the active area (43_framebuffer R142,
44_sequencer R164). -/
theorem draw_fb {c x y : Half} {s t : State}
    (h : exec (.pixel c x y) s = .next t ∨ exec (.psetRaw c x y) s = .next t) :
    t.fb = s.fb ∨ ∃ p on, p.xp < s.cfg.geometry.aw ∧ p.yp < s.cfg.geometry.ah ∧ t.fb = (fbWriteBit p on s).fb := by
  rcases h with h | h
  · obtain ⟨-, rfl⟩ | ⟨-, -, rfl⟩ | ⟨-, -, -, rfl⟩ | ⟨-, -, p, hp, rfl⟩ := execPixel_eq_next c x y s t h
    · exact .inl rfl
    · exact .inl rfl
    · exact .inl rfl
    · exact .inr ⟨p, colorOn c, (resolvePanel_lt hp).1, (resolvePanel_lt hp).2, rfl⟩
  · obtain ⟨-, rfl⟩ | ⟨-, -, rfl⟩ | ⟨-, -, -, rfl⟩ | ⟨-, -, hx, hy, rfl⟩ := execPsetRaw_eq_next c x y s t h
    · exact .inl rfl
    · exact .inl rfl
    · exact .inl rfl
    · exact .inr ⟨⟨x.toNat, y.toNat⟩, colorOn c, hx, hy, rfl⟩

/-! ## Canonical memory, kept by every operation -/

/-- `MemoryOk` reads the state's FB and geometry only. -/
theorem memoryOk_of_fb_eq {s t : State} (hs : MemoryOk s) (hcfg : t.cfg = s.cfg) (hfb : t.fb = s.fb) :
    MemoryOk t := by
  rw [MemoryOk, hcfg, hfb]
  exact hs

theorem memoryOk_of_write {s t : State} {i : Nat} {v : Byte} (hs : MemoryOk s) (hi : i < s.cfg.geometry.fbLen)
    (hcfg : t.cfg = s.cfg) (hfb : t.fb = s.fb.write i v) : MemoryOk t := by
  rw [MemoryOk, hcfg, hfb]
  exact ⟨Memory.write_wf _ _ _ hs.1, Memory.write_within _ _ _ _ hs.2 hi⟩

theorem memoryOk_of_clearUpTo {s t : State} (hs : MemoryOk s) (hcfg : t.cfg = s.cfg)
    (hfb : t.fb = s.fb.clearUpTo s.cfg.geometry.fbLen) : MemoryOk t := by
  rw [MemoryOk, hcfg, hfb]
  exact ⟨Memory.clearUpTo_wf _ _ hs.1, Memory.clearUpTo_within _ _ _ hs.2 le_rfl⟩

theorem draw_memoryOk {c x y : Half} {s t : State} (hs : MemoryOk s) (hcfg : t.cfg = s.cfg)
    (h : exec (.pixel c x y) s = .next t ∨ exec (.psetRaw c x y) s = .next t) : MemoryOk t := by
  obtain hfb | ⟨p, on, hx, hy, hfb⟩ := draw_fb h
  · exact memoryOk_of_fb_eq hs hcfg hfb
  · have hbyte := p.byteIndex_lt s.cfg.geometry hx (hy.trans_le (Geometry.ah_le_rows _))
    exact memoryOk_of_write hs hbyte hcfg hfb

theorem execClear_memoryOk {s t : State} (hs : MemoryOk s) (h : execClear s = .next t) : MemoryOk t := by
  obtain ⟨-, rfl⟩ | ⟨-, -, rfl⟩ | ⟨-, -, rfl⟩ := execClear_eq_next s t h
  · exact hs
  · exact hs
  · exact memoryOk_of_clearUpTo hs rfl rfl

/-- The three operations with the FB column store inside FB; the others leave FB as it was (10_state R34). -/
theorem exec_memoryOk {i : Instr} {s t : State} (hs : MemoryOk s) (h : exec i s = .next t) : MemoryOk t := by
  have e := exec_effect h
  cases i with
  | pixel c x y => exact draw_memoryOk hs e.cfg_eq (.inl h)
  | psetRaw c x y => exact draw_memoryOk hs e.cfg_eq (.inr h)
  | clear => exact execClear_memoryOk hs h
  | _ => exact memoryOk_of_fb_eq hs e.cfg_eq (e.fb_eq rfl)

/-! ## A well-framed trace, kept by every operation -/

theorem bound_addr_legal {s : State} (hl : LifecycleOk s) (hm : s.mode ≠ .uninit) : legalBusAddr s.addr := by
  obtain ⟨-, -, haddr⟩ := hl
  exact haddr hm

section Framing

variable {s t : State}

theorem execSetup_wellFramed {a : Byte} (hw : WellFramed s.cfg.resetPin s.trace) (h : execSetup a s = .next t) :
    WellFramed s.cfg.resetPin t.trace := by
  obtain ⟨-, rfl⟩ | ⟨ha, r, hr, rfl⟩ := execSetup_eq_next a s t h
  · exact hw
  · have hscript := runScript_wellFramed s.cfg.resetPin _ _ (legalBusAddr_addrBits a ha) _ _ _ _ hr
    have hwait : WellFramed s.cfg.resetPin (if r.failed then [] else [.delayMs Config.postInitMs]) := by
      split
      · exact WellFramed.nil _
      · exact WellFramed.segment (.wait Config.postInitMs) trivial
    exact ((hw.append (resetPulse_wellFramed _)).append hscript).append hwait

theorem execFlush_wellFramed (hl : LifecycleOk s) (hw : WellFramed s.cfg.resetPin s.trace)
    (h : execFlush s = .next t) : WellFramed s.cfg.resetPin t.trace := by
  obtain ⟨-, rfl⟩ | ⟨-, -, rfl⟩ | ⟨-, hm, r, hr, rfl⟩ := execFlush_eq_next s t h
  · exact hw
  · exact hw
  · have ha : legalBusAddr s.addr := bound_addr_legal hl (by simp [hm])
    exact hw.append (flushTraffic_wellFramed _ _ _ ha _ _ _ _ _ hr)

theorem execSendCmd_wellFramed {b : Byte} (hl : LifecycleOk s) (hw : WellFramed s.cfg.resetPin s.trace)
    (h : execSendCmd b s = .next t) : WellFramed s.cfg.resetPin t.trace := by
  obtain ⟨-, rfl⟩ | ⟨hm, r, hr, rfl⟩ := execSendCmd_eq_next b s t h
  · exact hw
  · exact hw.append (frameItem_wellFramed _ _ (bound_addr_legal hl hm) (.cmd b) _ _ hr)

theorem execSendData_wellFramed {b : Byte} (hl : LifecycleOk s) (hw : WellFramed s.cfg.resetPin s.trace)
    (h : execSendData b s = .next t) : WellFramed s.cfg.resetPin t.trace := by
  obtain ⟨-, rfl⟩ | ⟨hm, r, hr, rfl⟩ := execSendData_eq_next b s t h
  · exact hw
  · exact hw.append (frameItem_wellFramed _ _ (bound_addr_legal hl hm) (.data b) _ _ hr)

theorem execSendRun_wellFramed {off len : Field24} (hl : LifecycleOk s) (hw : WellFramed s.cfg.resetPin s.trace)
    (h : execSendRun off len s = .next t) : WellFramed s.cfg.resetPin t.trace := by
  obtain ⟨-, rfl⟩ | ⟨-, -, rfl⟩ | ⟨hm, -, r, hr, rfl⟩ := execSendRun_eq_next off len s t h
  · exact hw
  · exact hw
  · exact hw.append (runLoop_wellFramed _ _ _ (bound_addr_legal hl hm) _ _ _ _ hr)

theorem execProbe_wellFramed (hl : LifecycleOk s) (hw : WellFramed s.cfg.resetPin s.trace)
    (h : execProbe s = .next t) : WellFramed s.cfg.resetPin t.trace := by
  obtain ⟨-, rfl⟩ | ⟨hm, x, rest, -, rfl⟩ := execProbe_eq_next s t h
  · exact hw
  · exact hw.append (WellFramed.segment (.probe s.addr x.status) (bound_addr_legal hl hm))

/-- The operations with the TRACE column append whole legal segments; the others emit nothing (30_encoding R76). -/
theorem exec_wellFramed {i : Instr} (hl : LifecycleOk s) (hw : WellFramed s.cfg.resetPin s.trace)
    (h : exec i s = .next t) : WellFramed s.cfg.resetPin t.trace := by
  cases i with
  | setup a => exact execSetup_wellFramed hw h
  | flush => exact execFlush_wellFramed hl hw h
  | sendCmd b => exact execSendCmd_wellFramed hl hw h
  | sendData b => exact execSendData_wellFramed hl hw h
  | sendRun off len => exact execSendRun_wellFramed hl hw h
  | probe => exact execProbe_wellFramed hl hw h
  | _ => rwa [((exec_effect h).trace_answers_eq rfl).1]

theorem step_wellFramed (hl : LifecycleOk s) (hw : WellFramed s.cfg.resetPin s.trace) (h : step s = .next t) :
    WellFramed t.cfg.resetPin t.trace := by
  obtain ⟨-, ⟨-, rfl⟩ | ⟨w, why, -, -, rfl⟩ | ⟨w, i, -, -, hi⟩⟩ := step_eq_next s t h
  · exact hw
  · exact hw
  · rw [(exec_effect hi).cfg_eq]
    exact exec_wellFramed hl hw hi

end Framing

/-! ## Runs -/

/-- A run of `k + 1` steps that ends in a state is one step and a run of `k` steps. -/
theorem core_run_succ_eq_next {M : Host.Core} {k : Nat} {s t : M.State} (h : M.run (k + 1) s = .next t) :
    ∃ u, M.step s = .next u ∧ M.run k u = .next t := by
  unfold Host.Core.run at h
  split at h
  · rename_i u hu
    exact ⟨u, hu, h⟩
  · cases h
  · cases h

/-- What every step keeps, every run keeps. -/
theorem core_run_keeps {P : State → Prop} (hstep : ∀ s t, P s → step s = .next t → P t) :
    ∀ (k : Nat) (s t : State), P s → Sys2Proof.core.run k s = .next t → P t := by
  intro k
  induction k with
  | zero =>
    intro s t hs h
    cases h
    exact hs
  | succ k ih =>
    intro s t hs h
    obtain ⟨u, hu, hrun⟩ := core_run_succ_eq_next h
    exact ih u t (hstep s u hs hu) hrun

/-! ## The host's moves -/

/-- The host reads back the byte it wrote inside FB, and every other byte as before (20_memory R51). -/
theorem hostReadFb_hostWriteFb (s : State) (i j : Nat) (v : Byte) :
    (s.hostWriteFb i v).hostReadFb j = if j = i ∧ i < s.cfg.geometry.fbLen then some v else s.hostReadFb j := by
  by_cases hi : i < s.cfg.geometry.fbLen
  · by_cases hj : j = i
    · simp [State.hostWriteFb, State.hostReadFb, hi, hj]
    · simp [State.hostWriteFb, State.hostReadFb, hi, hj, Memory.read_write_other]
  · simp [State.hostWriteFb, hi]

theorem hostWriteFb_memoryOk {s : State} (hs : MemoryOk s) (i : Nat) (v : Byte) : MemoryOk (s.hostWriteFb i v) := by
  unfold State.hostWriteFb
  split
  · rename_i hi
    exact memoryOk_of_write hs hi rfl rfl
  · exact hs

theorem hostWriteFb_registers (s : State) (i : Nat) (v : Byte) :
    (s.hostWriteFb i v).mode = s.mode ∧ (s.hostWriteFb i v).ready = s.ready ∧ (s.hostWriteFb i v).addr = s.addr := by
  unfold State.hostWriteFb
  split <;> exact ⟨rfl, rfl, rfl⟩

theorem powerOnReset_lifecycleOk (s : State) : LifecycleOk s.powerOnReset :=
  ⟨.inl s.powerOnReset_mode, fun _ => s.powerOnReset_ready, fun h => absurd s.powerOnReset_mode h⟩

/-! ## The obligations -/

/-- Settles O18: the wait and F_ILLEGAL keep FB, and every operation stores inside FB or not at all. -/
theorem stepKeepsMemoryCanonical : Obligations.StepKeepsMemoryCanonical := by
  intro s t hs h
  obtain ⟨-, ⟨-, rfl⟩ | ⟨w, why, -, -, rfl⟩ | ⟨w, i, -, -, hi⟩⟩ := step_eq_next s t h
  · exact hs
  · exact hs
  · exact exec_memoryOk hs hi

/-- The four invariants together: the trace's needs the lifecycle's to be kept by a step. -/
def MeetsInvariants (s : State) : Prop :=
  MemoryOk s ∧ LifecycleOk s ∧ FaultOk s ∧ WellFramed s.cfg.resetPin s.trace

theorem step_meetsInvariants (s t : State) (hs : MeetsInvariants s) (h : step s = .next t) : MeetsInvariants t := by
  obtain ⟨hmem, hlife, hfault, hframed⟩ := hs
  exact ⟨stepKeepsMemoryCanonical s t hmem h, stepKeepsLifecycle s t hlife h, stepKeepsFaultCode s t hfault h,
    step_wellFramed hlife hframed h⟩

/-- Settles O23: each step keeps the four invariants together, so a run of any length does. -/
theorem runsKeepInvariants : Obligations.RunsKeepInvariants := by
  intro k s t hmem hlife hfault hframed h
  exact core_run_keeps step_meetsInvariants k s t ⟨hmem, hlife, hfault, hframed⟩ h

/-- Settles O24: a host write inside FB is a canonical write, presenting words keeps FB and the registers, and power-on
reset keeps FB and unbinds the block. -/
theorem hostMovesKeepInvariants : Obligations.HostMovesKeepInvariants := by
  intro s hmem hlife
  refine ⟨fun i v => ⟨hostWriteFb_memoryOk hmem i v, ?_, fun hi => ?_, fun j hj => ?_⟩, fun ws => ⟨?_, ?_⟩, ?_, ?_⟩
  · exact lifecycleOk_of_registers_eq hlife (hostWriteFb_registers s i v)
  · rw [hostReadFb_hostWriteFb, if_pos ⟨rfl, hi⟩]
  · rw [hostReadFb_hostWriteFb, if_neg fun h => hj h.1]
  · exact memoryOk_of_fb_eq hmem (s.present_cfg ws) (s.present_fb ws)
  · exact lifecycleOk_of_registers_eq hlife ⟨s.present_mode ws, s.present_ready ws, s.present_addr ws⟩
  · exact memoryOk_of_fb_eq hmem s.powerOnReset_cfg s.powerOnReset_fb
  · exact powerOnReset_lifecycleOk s

/-- Settles O33: a byte and a bit are those of `PanelPos.ofBit`, and of no other pixel. -/
theorem pixelMapIsABijection : Obligations.PixelMapIsABijection := by
  refine fun g => ⟨fun p hx hy => ?_, fun i k hi hk => ⟨PanelPos.ofBit g i k, ?_, fun q hx _ hbyte hbit => ?_⟩⟩
  · exact ⟨p.byteIndex_lt g hx hy, p.bitIndex_lt, p.byteIndex_mod g hx, p.byteIndex_div g hx⟩
  · exact ⟨PanelPos.ofBit_xp_lt g i k, PanelPos.ofBit_yp_lt hi hk, PanelPos.byteIndex_ofBit g i hk,
      PanelPos.bitIndex_ofBit g i hk⟩
  · exact PanelPos.byteIndex_bitIndex_inj (PanelPos.ofBit_xp_lt g i k) hx
      (hbyte.trans (PanelPos.byteIndex_ofBit g i hk).symm) (hbit.trans (PanelPos.bitIndex_ofBit g i hk).symm)

/-- Settles O39: what is drawn lies in the active area, so a pixel of a padding row is another pixel. -/
theorem paddingBitsAreNotDrawn : Obligations.PaddingBitsAreNotDrawn := by
  intro s t c x y q h hx hpad _
  have hcfg : t.cfg = s.cfg := h.elim (fun h => (exec_effect h).cfg_eq) (fun h => (exec_effect h).cfg_eq)
  obtain hfb | ⟨p, on, hpx, hpy, hfb⟩ := draw_fb h
  · rw [fbReadBit, hcfg, hfb, ← fbReadBit]
  · have hne : q ≠ p := by
      rintro rfl
      omega
    calc fbReadBit q t = fbReadBit q (fbWriteBit p on s) := by rw [fbReadBit, hcfg, hfb]; rfl
      _ = fbReadBit q s := fbReadBit_fbWriteBit_of_ne on hpx hx hne

end Sys2Proof.Machine
end

section
/-!
PROOFS. The encoding family. A word is cut into its opcode, the reserved bits of a format and the fields below them
(`eq_placed_opcode_reserved_fields`). `decode_eq_legal_iff` says once what decoding an operation means: it is one of the
eleven that the word's fields can make (`candidates`), the opcode is its row's, and its reserved bits are clear. The round
trips, the opcode table, the procedure of R71 and the assembler (30_encoding R61 to R73) are read off it.
-/

namespace Sys2Proof.Machine

open Sys2Proof.Claims
open Sys2Proof.Laws.EncodedWord (opcode reserved Statement)

/-! ## A word cut into fields -/

/-- Two neighbouring fields, put back where they were read, are the field they make together. -/
theorem placed_extract_or_placed_extract (w : OpWord) (lo n m : Nat) :
    placed (w.extractLsb' (lo + n) m) (lo + n) ||| placed (w.extractLsb' lo n) lo =
      placed (w.extractLsb' lo (n + m)) lo := by
  apply BitVec.eq_of_getLsbD_eq
  intro i hi
  simp only [BitVec.getLsbD_or, getLsbD_placed, BitVec.getLsbD_extractLsb', hi, decide_true, Bool.true_and]
  by_cases hlo : lo ≤ i
  · by_cases hn : lo + n ≤ i
    · simp [hlo, hn, show ¬ i - lo < n by omega, show i - (lo + n) < m ↔ i - lo < n + m by omega]
    · simp [hlo, hn, show i - lo < n by omega, show i - lo < n + m by omega]
  · simp [hlo, show ¬ lo + n ≤ i by omega]

theorem placed_extract_all (w : OpWord) : placed (w.extractLsb' 0 64) 0 = w := by
  simp [placed]

/-- A mask of neighbouring bits keeps the field there and clears the rest. -/
theorem and_placed_allOnes (w : OpWord) (lo n : Nat) :
    w &&& placed (BitVec.allOnes n) lo = placed (w.extractLsb' lo n) lo := by
  apply BitVec.eq_of_getLsbD_eq
  intro i hi
  simp only [BitVec.getLsbD_and, getLsbD_placed, BitVec.getLsbD_extractLsb', BitVec.getLsbD_allOnes, hi, decide_true,
    Bool.true_and]
  by_cases hlo : lo ≤ i
  · simp [hlo, Bool.and_comm]
  · simp [hlo]

@[simp] theorem placed_zero (n lo : Nat) : placed (0#n) lo = 0#64 := by simp [placed]

theorem placed_eq_zero_iff {n : Nat} (v : BitVec n) (lo : Nat) (h : lo + n ≤ 64) : placed v lo = 0#64 ↔ v = 0#n := by
  refine ⟨fun hv => ?_, fun hv => by rw [hv, placed_zero]⟩
  rw [← extract_placed v lo h, hv, BitVec.extractLsb'_zero]

/-- The field that the claims cut out of the word's number is the decoder's (00_scope R11). -/
theorem ofNat_fieldNumber (w : OpWord) (lo n : Nat) : BitVec.ofNat n (fieldNumber w lo n) = w.extractLsb' lo n := by
  apply BitVec.eq_of_toNat_eq
  simp [fieldNumber, BitVec.extractLsb'_toNat, Nat.shiftRight_eq_div_pow]

theorem opcodeOf_toNat_eq_opcodeNumber (w : OpWord) : (opcodeOf w).toNat = opcodeNumber w := opcodeOf_toNat w

/-- The lowest bit marked 0 in an operation's format; the highest is bit 55 (30_encoding R62 to R65). -/
def reservedFrom : Instr → Nat
  | .setup _ | .setRotation _ | .sendCmd _ | .sendData _ => 8
  | .resolve _ _ => 32
  | .pixel _ _ _ | .psetRaw _ _ _ | .sendRun _ _ => 48
  | .clear | .flush | .probe => 0

theorem reservedFrom_le (i : Instr) : reservedFrom i ≤ 56 := by cases i <;> simp [reservedFrom]

theorem reserved_eq_placed_allOnes (i : Instr) :
    reserved i = placed (BitVec.allOnes (56 - reservedFrom i)) (reservedFrom i) := by
  cases i <;> simp only [reserved, reservedFrom] <;> decide

/-- The reserved bits of a word in the format of `i`, as a field. -/
def reservedField (i : Instr) (w : OpWord) : BitVec (56 - reservedFrom i) :=
  w.extractLsb' (reservedFrom i) (56 - reservedFrom i)

theorem and_reserved (i : Instr) (w : OpWord) :
    w &&& reserved i = placed (reservedField i w) (reservedFrom i) := by
  rw [reserved_eq_placed_allOnes, and_placed_allOnes, reservedField]

theorem and_reserved_eq_zero_iff (i : Instr) (w : OpWord) : w &&& reserved i = 0#64 ↔ reservedField i w = 0#_ := by
  have hle := reservedFrom_le i
  rw [and_reserved, placed_eq_zero_iff _ _ (by omega)]

/-- A word is its opcode, the reserved bits of a format, and the fields below them. -/
theorem eq_placed_opcode_reserved_fields (i : Instr) (w : OpWord) :
    placed (opcodeOf w) 56 ||| (w &&& reserved i) ||| placed (w.extractLsb' 0 (reservedFrom i)) 0 = w := by
  have hle : reservedFrom i + (56 - reservedFrom i) = 56 := Nat.add_sub_of_le (reservedFrom_le i)
  have hbelow := placed_extract_or_placed_extract w 0 (reservedFrom i) (56 - reservedFrom i)
  have hall := placed_extract_or_placed_extract w 0 56 8
  rw [Nat.zero_add, hle] at hbelow
  rw [and_reserved, BitVec.or_assoc, reservedField, hbelow, opcodeOf]
  exact hall.trans (placed_extract_all w)

/-! ## What the decoder answers -/

/-- The eleven operations that a word's fields make, one per row of the opcode map (30_encoding R67). -/
def candidates (w : OpWord) : List Instr :=
  [.setup (fieldB w), .setRotation (fieldB w), .resolve (fieldX w) (fieldY w),
    .pixel (fieldColor w) (fieldX w) (fieldY w), .psetRaw (fieldColor w) (fieldX w) (fieldY w), .clear, .flush,
    .sendCmd (fieldB w), .sendData (fieldB w), .sendRun (fieldOff w) (fieldLen w), .probe]

/-- The first of some operations with the opcode of `w`, and its reserved mask. -/
def rowAmong (w : OpWord) : List Instr → Option (OpWord × Instr)
  | [] => none
  | i :: is => if opcodeOf w = opcode i then some (reserved i, i) else rowAmong w is

theorem rowOf_eq_rowAmong (w : OpWord) : rowOf w = rowAmong w (candidates w) := rfl

theorem candidates_opcodes (w : OpWord) :
    (candidates w).map opcode = [1#8, 2#8, 3#8, 4#8, 5#8, 6#8, 7#8, 8#8, 9#8, 10#8, 11#8] := rfl

theorem rowAmong_eq_none_iff (w : OpWord) (is : List Instr) :
    rowAmong w is = none ↔ opcodeOf w ∉ is.map opcode := by
  induction is with
  | nil => simp [rowAmong]
  | cons j js ih =>
    by_cases hj : opcodeOf w = opcode j
    · simp [rowAmong, hj]
    · rw [rowAmong, if_neg hj, ih, List.map_cons, List.mem_cons, or_iff_right hj]

theorem rowAmong_eq_some_iff {w mask : OpWord} {i : Instr} {is : List Instr} (hopcodes : (is.map opcode).Nodup) :
    rowAmong w is = some (mask, i) ↔ i ∈ is ∧ opcodeOf w = opcode i ∧ mask = reserved i := by
  induction is with
  | nil => simp [rowAmong]
  | cons j js ih =>
    rw [List.map_cons, List.nodup_cons] at hopcodes
    obtain ⟨hj, hjs⟩ := hopcodes
    by_cases hw : opcodeOf w = opcode j
    · rw [rowAmong, if_pos hw]
      constructor
      · rintro ⟨⟩
        exact ⟨List.mem_cons_self, hw, rfl⟩
      · rintro ⟨hi, hop, rfl⟩
        rcases List.mem_cons.1 hi with rfl | hi
        · rfl
        · exact absurd (List.mem_map.2 ⟨i, hi, hop.symm.trans hw⟩) hj
    · have hne : opcodeOf w = opcode i → i ≠ j := fun hop hij => hw (hij ▸ hop)
      rw [rowAmong, if_neg hw, ih hjs, List.mem_cons]
      exact ⟨fun ⟨hi, h⟩ => ⟨.inr hi, h⟩, fun ⟨hi, h⟩ => ⟨hi.resolve_left (hne h.1), h⟩⟩

/-- The row of an opcode is the candidate with that opcode, and its reserved mask (30_encoding R67). -/
theorem rowOf_eq_some_iff (w mask : OpWord) (i : Instr) :
    rowOf w = some (mask, i) ↔ i ∈ candidates w ∧ opcodeOf w = opcode i ∧ mask = reserved i := by
  rw [rowOf_eq_rowAmong, rowAmong_eq_some_iff]
  rw [candidates_opcodes]
  decide

theorem decode_eq_of_row {w : OpWord} {i : Instr} (hi : i ∈ candidates w) (hop : opcodeOf w = opcode i) :
    decode w = if w &&& reserved i = 0#64 then .legal i else .illegal .reservedBits := by
  rw [decode, (rowOf_eq_some_iff w (reserved i) i).2 ⟨hi, hop, rfl⟩]

/-- A word is an operation when it is a candidate of its opcode with no reserved bit set (30_encoding R71). -/
theorem decode_eq_legal_iff (w : OpWord) (i : Instr) :
    decode w = .legal i ↔ i ∈ candidates w ∧ opcodeOf w = opcode i ∧ w &&& reserved i = 0#64 := by
  constructor
  · intro h
    unfold decode at h
    split at h
    · cases h
    · rename_i mask j hrow
      split at h
      · rename_i hmask
        cases h
        obtain ⟨hi, hop, rfl⟩ := (rowOf_eq_some_iff w mask i).1 hrow
        exact ⟨hi, hop, hmask⟩
      · cases h
  · rintro ⟨hi, hop, hmask⟩
    rw [decode_eq_of_row hi hop, if_pos hmask]

/-! ## The round trips -/

/-- The word of every operation has the opcode of its row and no reserved bit set. -/
theorem encodedWord (i : Instr) : Statement i := by
  cases i with
  | setup b => exact Laws.EncodedWord.setup b
  | setRotation b => exact Laws.EncodedWord.setRotation b
  | resolve x y => exact Laws.EncodedWord.resolve x y
  | pixel c x y => exact Laws.EncodedWord.pixel c x y
  | psetRaw c x y => exact Laws.EncodedWord.psetRaw c x y
  | clear => exact Laws.EncodedWord.clear
  | flush => exact Laws.EncodedWord.flush
  | sendCmd b => exact Laws.EncodedWord.sendCmd b
  | sendData b => exact Laws.EncodedWord.sendData b
  | sendRun off len => exact Laws.EncodedWord.sendRun off len
  | probe => exact Laws.EncodedWord.probe

/-- The fields of an operation's word are its operands. -/
theorem mem_candidates_encode (i : Instr) : i ∈ candidates (encode i) := by
  cases i with
  | setup | setRotation | sendCmd | sendData => simp [candidates, encode, fieldB_formatB]
  | resolve => simp [candidates, encode, fieldX_formatP, fieldY_formatP]
  | pixel | psetRaw => simp [candidates, encode, fieldColor_formatP, fieldX_formatP, fieldY_formatP]
  | sendRun => simp [candidates, encode, fieldOff_formatR, fieldLen_formatR]
  | clear | flush | probe => simp [candidates]

/-- Settles O1: the word of an operation has its fields, its opcode, and no reserved bit. -/
theorem decodeEncodeRoundTrip : Obligations.DecodeEncodeRoundTrip := fun i =>
  (decode_eq_legal_iff (encode i) i).2 ⟨mem_candidates_encode i, encodedWord i⟩

/-! Each format's fields, read from a word and put back in place, are the bits below its reserved ones. -/

theorem formatN_fields (opc : Byte) (w : OpWord) :
    formatN opc = placed opc 56 ||| placed (w.extractLsb' 0 0) 0 := by
  rw [formatN, BitVec.of_length_zero (x := w.extractLsb' 0 0), placed_zero, BitVec.or_zero]

theorem formatP_fields (opc : Byte) (w : OpWord) :
    formatP opc (fieldColor w) (fieldX w) (fieldY w) = placed opc 56 ||| placed (w.extractLsb' 0 48) 0 := by
  rw [← placed_extract_or_placed_extract w 0 32 16, ← placed_extract_or_placed_extract w 0 16 16,
    ← BitVec.or_assoc, ← BitVec.or_assoc]
  rfl

/-- RESOLVE: format P with COLOR clear (30_encoding R64). -/
theorem formatP_fieldsXY (opc : Byte) (w : OpWord) :
    formatP opc 0#16 (fieldX w) (fieldY w) = placed opc 56 ||| placed (w.extractLsb' 0 32) 0 := by
  rw [← placed_extract_or_placed_extract w 0 16 16, ← BitVec.or_assoc, formatP, placed_zero, BitVec.or_zero]
  rfl

theorem formatR_fields (opc : Byte) (w : OpWord) :
    formatR opc (fieldOff w) (fieldLen w) = placed opc 56 ||| placed (w.extractLsb' 0 48) 0 := by
  rw [← placed_extract_or_placed_extract w 0 24 24, ← BitVec.or_assoc]
  rfl

/-- A candidate's word is its opcode and the word's own fields, one format lemma per row. -/
theorem encode_of_mem_candidates (w : OpWord) : ∀ i ∈ candidates w,
    encode i = placed (opcode i) 56 ||| placed (w.extractLsb' 0 (reservedFrom i)) 0 := by
  simp only [candidates, List.forall_mem_cons]
  exact ⟨rfl, rfl, formatP_fieldsXY _ w, formatP_fields _ w, formatP_fields _ w, formatN_fields _ w,
    formatN_fields _ w, rfl, rfl, formatR_fields _ w, formatN_fields _ w, fun i hi => absurd hi List.not_mem_nil⟩

/-- Settles O2: a decoded word is its opcode and its fields, and so is the operation's own word. -/
theorem oneWordPerOperation : Obligations.OneWordPerOperation := by
  intro w i h
  obtain ⟨hi, hop, hmask⟩ := (decode_eq_legal_iff w i).1 h
  have hw := eq_placed_opcode_reserved_fields i w
  rw [hop, hmask, BitVec.or_zero] at hw
  rw [encode_of_mem_candidates w i hi, hw]

/-! ## The opcode table -/

/-- The (match, mask) pair of an operation's row of spec/opcode_table.json. -/
def tableRow (i : Instr) : OpWord × OpWord := (placed (opcode i) 56, placed 0xFF#8 56 ||| reserved i)

theorem tableRows_eq_map (w : OpWord) : tableRows = (candidates w).map tableRow := by
  simp only [candidates, List.map_cons, List.map_nil, tableRow, opcode, reserved]
  decide

/-- A word matches a row when its opcode is the row's and the reserved bits are clear. -/
theorem matches_tableRow_iff (w : OpWord) (i : Instr) :
    w &&& (tableRow i).2 = (tableRow i).1 ↔ opcodeOf w = opcode i ∧ w &&& reserved i = 0#64 := by
  have hle := reservedFrom_le i
  have hcut : w &&& (tableRow i).2 = placed (opcodeOf w) 56 ||| placed (reservedField i w) (reservedFrom i) := by
    rw [tableRow, BitVec.and_or_distrib_left, and_reserved]
    exact congrArg (· ||| _) (and_placed_allOnes w 56 8)
  rw [hcut, and_reserved_eq_zero_iff, tableRow]
  constructor
  · intro h
    have hopcode := congrArg (BitVec.extractLsb' 56 8) h
    have hreserved := congrArg (BitVec.extractLsb' (reservedFrom i) (56 - reservedFrom i)) h
    rw [extract_or, extract_placed _ _ (by omega), extract_placed_apart _ _ _ _ (by omega), BitVec.or_zero,
      extract_placed _ _ (by omega)] at hopcode
    rw [extract_or, extract_placed_apart _ _ _ _ (by omega), extract_placed _ _ (by omega), BitVec.zero_or,
      extract_placed_apart _ _ _ _ (by omega)] at hreserved
    exact ⟨hopcode, hreserved⟩
  · rintro ⟨hopcode, hreserved⟩
    rw [hopcode, hreserved, placed_zero, BitVec.or_zero]

theorem isOperation_iff_matches_row (w : OpWord) :
    (∃ i, decode w = .legal i) ↔ ∃ row ∈ tableRows, w &&& row.2 = row.1 := by
  simp only [decode_eq_legal_iff, tableRows_eq_map w, List.mem_map, exists_exists_and_eq_and,
    matches_tableRow_iff]

/-- Rows of two opcodes have no word in common. -/
theorem tableRows_apart : tableRows.Pairwise (fun r q => ∀ w : OpWord, ¬ (w &&& r.2 = r.1 ∧ w &&& q.2 = q.1)) := by
  have hopcodes : ((candidates 0#64).map opcode).Nodup := by
    rw [candidates_opcodes]
    decide
  rw [tableRows_eq_map 0#64, List.pairwise_map]
  refine (List.pairwise_map.1 hopcodes).imp fun {i j} hij w h => hij ?_
  obtain ⟨hi, -⟩ := (matches_tableRow_iff w i).1 h.1
  obtain ⟨hj, -⟩ := (matches_tableRow_iff w j).1 h.2
  exact hi.symm.trans hj

/-- Settles O3: the rows of the table are those of the candidates, whose opcodes all differ. -/
theorem legalWordsAreTheTables : Obligations.LegalWordsAreTheTables := ⟨isOperation_iff_matches_row, tableRows_apart⟩

/-! ## The decoding procedure, by the word's numbers -/

/-- The defined opcodes are 0x01 to 0x0B (30_encoding R67, R68). -/
theorem opcodeOf_mem_iff (w : OpWord) :
    opcodeOf w ∈ (candidates w).map opcode ↔ 1 ≤ opcodeNumber w ∧ opcodeNumber w ≤ 0x0B := by
  rw [candidates_opcodes, ← opcodeOf_toNat_eq_opcodeNumber]
  simp only [List.mem_cons, List.not_mem_nil, or_false, ← BitVec.toNat_inj, BitVec.toNat_ofNat]
  omega

theorem decode_illegal_opcode {w : OpWord} (h : ¬ (1 ≤ opcodeNumber w ∧ opcodeNumber w ≤ 0x0B)) :
    decode w = .illegal .opcode := by
  rw [decode, (rowOf_eq_rowAmong w).trans ((rowAmong_eq_none_iff w _).2 (mt (opcodeOf_mem_iff w).1 h))]

/-- The candidate with the opcode of the word is the operation of the word's numbers, row by row. -/
theorem operationOf_eq (w : OpWord) : ∀ i ∈ candidates w, opcodeNumber w = (opcode i).toNat → operationOf w = i := by
  simp only [candidates, List.forall_mem_cons]
  refine ⟨?_, ?_, ?_, ?_, ?_, ?_, ?_, ?_, ?_, ?_, ?_, fun i hi => absurd hi List.not_mem_nil⟩
  all_goals
    intro h
    simp [operationOf, h, opcode, ofNat_fieldNumber, fieldB, fieldColor, fieldX, fieldY, fieldOff, fieldLen]

/-- A word with a defined opcode has its operation among the candidates. -/
theorem operationOf_mem_candidates {w : OpWord} (h1 : 1 ≤ opcodeNumber w) (h2 : opcodeNumber w ≤ 0x0B) :
    operationOf w ∈ candidates w ∧ opcodeOf w = opcode (operationOf w) := by
  obtain ⟨i, hi, hop⟩ := List.mem_map.1 ((opcodeOf_mem_iff w).2 ⟨h1, h2⟩)
  rw [operationOf_eq w i hi (by rw [hop, opcodeOf_toNat_eq_opcodeNumber])]
  exact ⟨hi, hop.symm⟩

theorem reservedField_eq_zero_iff (i : Instr) (w : OpWord) :
    reservedField i w = 0#_ ↔ w.toNat % 2 ^ 56 / 2 ^ reservedFrom i = 0 := by
  have hpow : 2 ^ 56 = 2 ^ reservedFrom i * 2 ^ (56 - reservedFrom i) := by
    rw [← Nat.pow_add, Nat.add_sub_of_le (reservedFrom_le i)]
  rw [← BitVec.toNat_inj, reservedField, BitVec.extractLsb'_toNat, Nat.shiftRight_eq_div_pow, hpow,
    Nat.mod_mul_right_div_self]
  rfl

/-- The claims' reserved bits are those of the format that the opcode names (30_encoding R62 to R65). -/
theorem reservedSet_iff {w : OpWord} {i : Instr} (hop : opcodeOf w = opcode i) :
    reservedSet w ↔ w &&& reserved i ≠ 0#64 := by
  have hnumber : opcodeNumber w = (opcode i).toNat := by rw [← hop, opcodeOf_toNat_eq_opcodeNumber]
  rw [ne_eq, and_reserved_eq_zero_iff, reservedField_eq_zero_iff]
  cases i <;> simp [reservedSet, hnumber, opcode, reservedFrom]

theorem decode_illegal_reservedBits {w : OpWord} (h1 : 1 ≤ opcodeNumber w) (h2 : opcodeNumber w ≤ 0x0B)
    (h : reservedSet w) : decode w = .illegal .reservedBits := by
  obtain ⟨hi, hop⟩ := operationOf_mem_candidates h1 h2
  rw [decode_eq_of_row hi hop, if_neg ((reservedSet_iff hop).1 h)]

theorem decode_legal_operationOf {w : OpWord} (h1 : 1 ≤ opcodeNumber w) (h2 : opcodeNumber w ≤ 0x0B)
    (h : ¬ reservedSet w) : decode w = .legal (operationOf w) := by
  obtain ⟨hi, hop⟩ := operationOf_mem_candidates h1 h2
  rw [decode_eq_of_row hi hop, if_pos (not_not.1 (mt (reservedSet_iff hop).2 h))]

/-! ## The step around the decoder -/

section Step

variable {s : State} {w : OpWord}

theorem step_of_illegal {why : IllegalWord} (h : Presents s w) (hd : decode w = .illegal why) :
    step s = .next { s with fault := 0x01#8 } := by
  obtain ⟨hfault, hword⟩ := h
  simp [step, State.isStopped, State.nextWord, hfault, hword, hd, FaultCode.code]

theorem step_of_legal {i : Instr} (h : Presents s w) (hd : decode w = .legal i) : step s = exec i s := by
  obtain ⟨hfault, hword⟩ := h
  simp [step, State.isStopped, State.nextWord, hfault, hword, hd]

end Step

/-- Settles O4: the three answers of the decoder by the word's numbers, then the three of the step. -/
theorem decodingFollowsTheProcedure : Obligations.DecodingFollowsTheProcedure := by
  refine ⟨fun w => ⟨fun h => decode_illegal_opcode (by omega), decode_illegal_reservedBits, decode_legal_operationOf⟩,
    fun s hs t h => ?_, fun s w hp => ⟨fun why => step_of_illegal hp, fun i => step_of_legal hp⟩⟩
  obtain ⟨hrunning, -⟩ := step_eq_next s t h
  exact hs hrunning

/-- Settles O5: such a word decodes to an illegal opcode, and the step raises F_ILLEGAL. -/
theorem illegalOpcodeFaults : Obligations.IllegalOpcodeFaults :=
  fun _ _ hp hop => step_of_illegal hp (decode_illegal_opcode (by omega))

/-- Settles O6: such a word decodes to reserved bits set, and the step raises F_ILLEGAL. -/
theorem reservedBitsFault : Obligations.ReservedBitsFault :=
  fun _ _ hp h1 h2 hset => step_of_illegal hp (decode_illegal_reservedBits h1 h2 hset)

/-- Settles O9: the decoder's legal answer is the step's last case. -/
theorem stepRunsDecodedOperation : Obligations.StepRunsDecodedOperation := fun _ _ _ => step_of_legal

/-- Settles O20: every operation appends whole legal segments, as `exec_wellFramed` says. -/
theorem stepKeepsTraceWellFramed : Obligations.StepKeepsTraceWellFramed := fun _ _ hlife hframed h =>
  step_wellFramed hlife hframed h

/-! ## The assembler -/

/-- A number that fits an unsigned field is the field's (30_encoding R66). -/
theorem eq_toNat_of_fitsU {n : Nat} {v : Int} (h : fitsU n v = true) : v = (BitVec.ofInt n v).toNat := by
  simp only [fitsU, Bool.and_eq_true, decide_eq_true_eq] at h
  obtain ⟨h0, hlt⟩ := h
  rw [BitVec.toNat_ofInt, Int.emod_eq_of_lt h0 (by exact_mod_cast hlt), Int.toNat_of_nonneg h0]

/-- A number that fits a signed coordinate field is the field's (00_scope R11). -/
theorem eq_toInt_of_fitsS16 {v : Int} (h : fitsS16 v = true) : v = (BitVec.ofInt 16 v).toInt := by
  simp only [fitsS16, Bool.and_eq_true, decide_eq_true_eq] at h
  rw [BitVec.toInt_ofInt, Int.bmod_eq_of_le (by omega) (by omega)]

/-- `FB_LEN` fits the LEN field of `SEND_FB` (30_encoding R73). -/
theorem fbLen_eq_toNat {g : Geometry} (h : AsmLine.sendFb.wf g = true) :
    (BitVec.ofInt 24 (g.fbLen : Int)).toNat = g.fbLen := by
  have hle : g.fbLen ≤ 2 ^ 24 - 1 := by simpa [AsmLine.wf] using h
  rw [BitVec.ofInt_natCast, BitVec.toNat_ofNat, Nat.mod_eq_of_lt (by omega)]

/-- A line whose operands fit stands for the operation it means (30_encoding R66, R72, R73). -/
theorem lineInstr_means (g : Geometry) (line : AsmLine) (h : line.wf g = true) :
    ∃ i, lineInstr (expandPseudo g line) = some i ∧ LineMeans g line i := by
  cases line with
  | setup a => exact ⟨_, rfl, _, rfl, eq_toNat_of_fitsU h⟩
  | setRotation c => exact ⟨_, rfl, _, rfl, eq_toNat_of_fitsU h⟩
  | sendCmd b => exact ⟨_, rfl, _, rfl, eq_toNat_of_fitsU h⟩
  | sendData b => exact ⟨_, rfl, _, rfl, eq_toNat_of_fitsU h⟩
  | clear => exact ⟨_, rfl, rfl⟩
  | flush => exact ⟨_, rfl, rfl⟩
  | probe => exact ⟨_, rfl, rfl⟩
  | resolve x y | pixelOn x y | pixelOff x y =>
    obtain ⟨hx, hy⟩ := Bool.and_eq_true_iff.1 h
    exact ⟨_, rfl, _, _, rfl, eq_toInt_of_fitsS16 hx, eq_toInt_of_fitsS16 hy⟩
  | pset x y | pclr x y | sendRun x y =>
    obtain ⟨hx, hy⟩ := Bool.and_eq_true_iff.1 h
    exact ⟨_, rfl, _, _, rfl, eq_toNat_of_fitsU hx, eq_toNat_of_fitsU hy⟩
  | pixel x y c =>
    obtain ⟨hxy, hc⟩ := Bool.and_eq_true_iff.1 h
    obtain ⟨hx, hy⟩ := Bool.and_eq_true_iff.1 hxy
    exact ⟨_, rfl, _, _, _, rfl, eq_toInt_of_fitsS16 hx, eq_toInt_of_fitsS16 hy, eq_toNat_of_fitsU hc⟩
  | psetRaw x y c =>
    obtain ⟨hxy, hc⟩ := Bool.and_eq_true_iff.1 h
    obtain ⟨hx, hy⟩ := Bool.and_eq_true_iff.1 hxy
    exact ⟨_, rfl, _, _, _, rfl, eq_toNat_of_fitsU hx, eq_toNat_of_fitsU hy, eq_toNat_of_fitsU hc⟩
  | sendFb => exact ⟨_, rfl, _, rfl, fbLen_eq_toNat h⟩

/-- A line whose operands fit assembles to the word of its operation. -/
theorem assemble_of_wf {g : Geometry} {line : AsmLine} {i : Instr} {w : OpWord} (h : line.wf g = true)
    (hi : lineInstr (expandPseudo g line) = some i) (hw : encode i = w) : assemble g line = some w := by
  rw [assemble, if_pos h, hi, Option.map_some, hw]

/-- An operand that does not fit is an error (30_encoding R72). -/
theorem assemble_of_not_wf {g : Geometry} {line : AsmLine} (h : line.wf g = false) : assemble g line = none := by
  rw [assemble, if_neg (by rw [h]; decide)]

/-- Settles O8: the word is the encoding of the line's operation, and decodes to it by the round trip. -/
theorem assembledLinesMeanTheirOperations : Obligations.AssembledLinesMeanTheirOperations := by
  refine fun g line => ⟨fun h => ?_, assemble_of_not_wf⟩
  obtain ⟨i, hi, hmeans⟩ := lineInstr_means g line h
  exact ⟨encode i, i, assemble_of_wf h hi rfl, decodeEncodeRoundTrip i, hmeans⟩

theorem decode_of_encode_eq {i : Instr} {w : OpWord} (hw : encode i = w) : decode w = .legal i := by
  rw [← hw, decodeEncodeRoundTrip]

/-- Settles O7: the lines' operands fit, the table's words are the encodings of the operations the lines name, and those
decode by the round trip. -/
theorem encodingExamplesDecode : Obligations.EncodingExamplesDecode := by
  have hsetup : encode (.setup 0x3C#8) = 0x010000000000003C#64 := by decide
  have hrotation : encode (.setRotation 1#8) = 0x0200000000000001#64 := by decide
  have hresolve : encode (.resolve (BitVec.ofInt 16 (-1)) 0#16) = 0x03000000FFFF0000#64 := by decide
  have hpixel : encode (.pixel 1#16 5#16 10#16) = 0x040000010005000A#64 := by decide
  have hraw : encode (.psetRaw 0#16 0#16 6#16) = 0x0500000000000006#64 := by decide
  have hclear : encode .clear = 0x0600000000000000#64 := by decide
  have hflush : encode .flush = 0x0700000000000000#64 := by decide
  have hcmd : encode (.sendCmd 0xAF#8) = 0x08000000000000AF#64 := by decide
  have hdata : encode (.sendData 0x55#8) = 0x0900000000000055#64 := by decide
  have hrun : encode (.sendRun 128#24 100#24) = 0x0A00000080000064#64 := by decide
  have hprobe : encode .probe = 0x0B00000000000000#64 := by decide
  exact ⟨fun _ => ⟨assemble_of_wf rfl rfl hsetup, assemble_of_wf rfl rfl hrotation, assemble_of_wf rfl rfl hresolve,
      assemble_of_wf rfl rfl hpixel, assemble_of_wf rfl rfl hraw, assemble_of_wf rfl rfl hclear,
      assemble_of_wf rfl rfl hflush, assemble_of_wf rfl rfl hcmd, assemble_of_wf rfl rfl hdata,
      assemble_of_wf rfl rfl hrun, assemble_of_wf rfl rfl hprobe⟩,
    decode_of_encode_eq hsetup, decode_of_encode_eq hrotation, decode_of_encode_eq hresolve,
    decode_of_encode_eq hpixel, decode_of_encode_eq hraw, decode_of_encode_eq hclear, decode_of_encode_eq hflush,
    decode_of_encode_eq hcmd, decode_of_encode_eq hdata, decode_of_encode_eq hrun, decode_of_encode_eq hprobe⟩

end Sys2Proof.Machine
end

section
/-!
PROOFS. The protocol family. `RunOf` says what a data run's transactions are, whatever the transport answers
(41_protocol R103); `runLoop_runOf` ties it to the model, and the properties of R104 are inductions over it.
`runLoop_after_success` and `runLoop_passes` say what successful answers make of a run: the slice's first bytes sent and
the cursor moved, and completion under R105's progress premise. The operations SEND_RUN, SEND_CMD, SEND_DATA and PROBE
follow.
-/

namespace Sys2Proof.Machine

open Sys2Proof.Claims

/-! ## Slices of the framebuffer -/

/-- A slice and the one behind it are one slice. -/
theorem Memory.slice_append (m : Memory) (off n k : Nat) :
    m.slice off n ++ m.slice (off + n) k = m.slice off (n + k) := by
  rw [Memory.slice, Memory.slice, ← List.map_append, List.range'_append_1, Memory.slice]

theorem Memory.take_slice (m : Memory) (off : Nat) {n len : Nat} (h : n ≤ len) :
    (m.slice off len).take n = m.slice off n := by
  rw [← Nat.add_sub_cancel' h, ← m.slice_append off n, List.take_left' (m.slice_length off n)]

/-! ## The transactions of a data run -/

/-- One transaction of a data run: the bytes it offers, the accepted counts of the discriminator and of those bytes, and
its end status (30_encoding R75). -/
abbrev Chunk := List Byte × Nat × Nat × Nat

namespace Chunk

/-- The bytes the transaction offers. -/
def offered (c : Chunk) : List Byte := c.1

/-- The accepted count of its discriminator. -/
def disc (c : Chunk) : Nat := c.2.1

/-- How many of the offered bytes it accepts. -/
def count (c : Chunk) : Nat := c.2.2.1

/-- Its end status. -/
def status (c : Chunk) : Nat := c.2.2.2

/-- The bytes it accepts. -/
def accepted (c : Chunk) : List Byte := c.offered.take c.count

/-- What it leaves in TRACE. -/
def events (a : BusAddr) (c : Chunk) : List Event := transaction a 0x40#8 c.offered c.disc c.count c.status

end Chunk

theorem payloadBytes_chunks (a : BusAddr) (cs : List Chunk) :
    payloadBytes (cs.flatMap (Chunk.events a)) = cs.flatMap Chunk.accepted := by
  induction cs with
  | nil => rfl
  | cons c cs ih =>
    rw [List.flatMap_cons, List.flatMap_cons, ← ih]
    exact payloadBytes_transaction ..

/-- With every discriminator accepted, the wire carries 0x40 and the accepted bytes of each transaction. -/
theorem wireBytes_chunks (a : BusAddr) (cs : List Chunk) (h : ∀ c ∈ cs, c.disc = 1) :
    wireBytes (cs.flatMap (Chunk.events a)) = cs.flatMap (fun c => 0x40#8 :: c.accepted) := by
  induction cs with
  | nil => rfl
  | cons c cs ih =>
    obtain ⟨hc, hcs⟩ := List.forall_mem_cons.1 h
    rw [List.flatMap_cons, List.flatMap_cons, ← ih hcs, Chunk.events, wireBytes_transaction, hc]
    rfl

theorem sum_counts_le (K : Nat) (cs : List Chunk) (h : ∀ c ∈ cs, c.count ≤ K) :
    (cs.map Chunk.count).sum ≤ K * cs.length := by
  have hle := List.sum_le_card_nsmul (cs.map Chunk.count) K (List.forall_mem_map.2 h)
  rwa [List.length_map, smul_eq_mul, Nat.mul_comm] at hle

/-- `RunOf fb i left failed cs`: `cs` are the transactions of a data run that has `left` bytes of `fb` to send from
index `i`, and `failed` says whether it fails (41_protocol R103, R111). -/
inductive RunOf (fb : Memory) : Nat → Nat → Bool → List Chunk → Prop
  /-- Nothing is left to send. -/
  | done (i : Nat) : RunOf fb i 0 false []
  /-- A failing transaction offers all that is left, and ends the run. -/
  | failed (i left d n s : Nat) (hs : s ≠ 0) : RunOf fb i left true [(fb.slice i left, d, n, s)]
  /-- A successful one offers all that is left, and the run goes on behind the bytes it accepted. -/
  | accepted (i left d n : Nat) (failed : Bool) (cs : List Chunk) (hn : n ≤ left)
      (hrun : RunOf fb (i + n) (left - n) failed cs) : RunOf fb i left failed ((fb.slice i left, d, n, 0) :: cs)

/-- The model's run is such a list of transactions, whatever the transport answers. -/
theorem runLoop_runOf (a : BusAddr) (fb : Memory) (ts : List TxAnswer) : ∀ (i left : Nat) (r : Sent),
    runLoop a fb ts i left = some r →
    ∃ cs, RunOf fb i left r.failed cs ∧ r.events = cs.flatMap (Chunk.events a) := by
  induction ts with
  | nil =>
    intro i left r h
    rcases runLoop_eq_some _ _ _ _ _ _ h with ⟨rfl, rfl⟩ | ⟨-, t, rest, e, -⟩ | ⟨-, t, rest, r', e, -⟩
    · exact ⟨[], .done i, rfl⟩
    · cases e
    · cases e
  | cons t ts ih =>
    intro i left r h
    rcases runLoop_eq_some _ _ _ _ _ _ h with
      ⟨rfl, rfl⟩ | ⟨-, t', rest, e, ht, rfl⟩ | ⟨-, t', rest, r', e, ht, hrest, rfl⟩
    · exact ⟨[], .done i, rfl⟩
    · exact ⟨_, .failed i left (min t'.disc 1) (min t'.payload left) t'.status ht, by
        rw [List.flatMap_cons, List.flatMap_nil, List.append_nil]; rfl⟩
    · cases e
      obtain ⟨cs, hcs, hevents⟩ := ih _ _ _ hrest
      refine ⟨_, .accepted i left (min t.disc 1) _ _ cs (Nat.min_le_right ..) hcs, ?_⟩
      rw [List.flatMap_cons, ← hevents, ht]; rfl

namespace RunOf

variable {fb : Memory} {i left : Nat} {failed : Bool} {cs : List Chunk}

/-- A run that passes has sent all that was left. -/
theorem sum_counts (h : RunOf fb i left failed cs) (hpass : failed = false) : (cs.map Chunk.count).sum = left := by
  induction h with
  | done i => rfl
  | failed => cases hpass
  | accepted i left d n failed cs hn hrun ih =>
    rw [List.map_cons, List.sum_cons, ih hpass]
    exact Nat.add_sub_cancel' hn

/-- A run that passes has had the slice accepted, in order. -/
theorem accepted_eq_slice (h : RunOf fb i left failed cs) (hpass : failed = false) :
    cs.flatMap Chunk.accepted = fb.slice i left := by
  induction h with
  | done i => rfl
  | failed => cases hpass
  | accepted i left d n failed cs hn hrun ih =>
    rw [List.flatMap_cons, ih hpass]
    exact (fb.slice_split i left n hn).symm

/-- A run that fails does so in its last transaction, and what was accepted before it begins the slice. -/
theorem fails_in_last (h : RunOf fb i left failed cs) (hfail : failed = true) :
    ∃ good last, cs = good ++ [last] ∧ last.status ≠ 0 ∧ (∀ c ∈ good, c.status = 0) ∧
      good.flatMap Chunk.accepted <+: fb.slice i left := by
  induction h with
  | done => cases hfail
  | failed i left d n s hs => exact ⟨[], _, rfl, hs, by simp, List.nil_prefix⟩
  | accepted i left d n failed cs hn hrun ih =>
    obtain ⟨good, last, rfl, hlast, hgood, hprefix⟩ := ih hfail
    refine ⟨_ :: good, last, rfl, hlast, List.forall_mem_cons.2 ⟨rfl, hgood⟩, ?_⟩
    have happend := (List.prefix_append_right_inj ((fb.slice i left).take n)).2 hprefix
    rw [← fb.slice_split i left n hn] at happend
    exact happend

end RunOf

/-- At most `K` bytes a transaction: a passing run of more than `K` bytes takes two or more (41_protocol R104). -/
theorem transactions_of_bounded_counts {len K : Nat} {cs : List Chunk} (hsum : (cs.map Chunk.count).sum = len)
    (hK : ∀ c ∈ cs, c.count ≤ K) (hlt : K < len) : 2 ≤ cs.length ∧ len ≤ K * cs.length := by
  have hle : len ≤ K * cs.length := hsum ▸ sum_counts_le K cs hK
  refine ⟨?_, hle⟩
  by_contra hlen
  have hone : K * cs.length ≤ K * 1 := Nat.mul_le_mul_left K (by omega)
  omega

/-- Settles O44: each property is one of the run's transactions. -/
theorem dataRunProperties : Obligations.DataRunProperties := by
  intro a fb off len ts r h
  obtain ⟨cs, hrun, hevents⟩ := runLoop_runOf a fb ts off len r h
  have hpayload : payloadBytes r.events = cs.flatMap Chunk.accepted := hevents ▸ payloadBytes_chunks a cs
  refine ⟨fun hpass => hpayload.trans (hrun.accepted_eq_slice hpass), cs, hevents, hpayload, hrun.sum_counts,
    fun hdisc => ?_, fun K hK hlt hpass => ?_, hrun.fails_in_last⟩
  · rw [hevents]; exact wireBytes_chunks a cs hdisc
  · exact transactions_of_bounded_counts (hrun.sum_counts hpass) hK hlt

/-! ## What successful answers make of a run -/

/-- Successful answers that do not complete a run send the slice's first bytes and move the cursor behind them; what the
run then does is up to the answers `ts` that follow (41_protocol R103). -/
theorem runLoop_after_success (a : BusAddr) (fb : Memory) (good : List TxAnswer) : ∀ i left : Nat,
    (∀ t ∈ good, t.status = 0) → (good.map TxAnswer.payload).sum < left →
    ∃ es, payloadBytes es = fb.slice i (good.map TxAnswer.payload).sum ∧
      ∀ ts, runLoop a fb (good ++ ts) i left =
        (runLoop a fb ts (i + (good.map TxAnswer.payload).sum) (left - (good.map TxAnswer.payload).sum)).map
          (fun r => ⟨r.failed, es ++ r.events, r.rest⟩) := by
  induction good with
  | nil => intro i left _ _; exact ⟨[], rfl, fun ts => (Option.map_id' ..).symm⟩
  | cons t good ih =>
    intro i left hgood hsum
    obtain ⟨ht, hgood⟩ := List.forall_mem_cons.1 hgood
    rw [List.map_cons, List.sum_cons] at hsum ⊢
    obtain ⟨es, hes, hrun⟩ := ih (i + t.payload) (left - t.payload) hgood (by omega)
    refine ⟨transaction a 0x40#8 (fb.slice i left) (min t.disc 1) t.payload t.status ++ es, ?_, fun ts => ?_⟩
    · rw [payloadBytes_transaction, hes, fb.take_slice i (by omega), fb.slice_append]
    · have hwhole : min t.payload left = t.payload := by omega
      rw [List.cons_append, runLoop_accepted _ _ _ _ _ _ (by omega) ht, hwhole, hrun, Option.map_map, Nat.add_assoc,
        Nat.sub_sub]
      simp [Function.comp_def]

/-- One answer with progress leaves the premise to what is left of the run. -/
theorem allProgress_rest {t : TxAnswer} {ts : List TxAnswer} {left n : Nat} (h : AllProgress (t :: ts) left)
    (hleft : 0 < left) (hn : 1 ≤ n) : AllProgress ts (left - n) := by
  obtain ⟨hlen, hts⟩ := h
  rw [List.length_cons] at hlen
  refine ⟨by omega, fun x hx => hts x ?_⟩
  rw [List.take_cons hleft]
  exact List.mem_cons_of_mem _ ((List.take_subset_take_left _ (by omega)) hx)

/-- A run passes if each answer succeeds and accepts a byte (41_protocol R105). -/
theorem runLoop_passes (a : BusAddr) (fb : Memory) (ts : List TxAnswer) : ∀ i left : Nat, AllProgress ts left →
    ∃ es rest, runLoop a fb ts i left = some ⟨false, es, rest⟩ := by
  induction ts with
  | nil =>
    rintro i left ⟨hlen, -⟩
    obtain rfl := Nat.le_zero.1 hlen
    exact ⟨[], [], runLoop_done ..⟩
  | cons t ts ih =>
    intro i left h
    rcases Nat.eq_zero_or_pos left with rfl | hleft
    · exact ⟨[], t :: ts, runLoop_done ..⟩
    · obtain ⟨ht, hprogress⟩ : t.status = 0 ∧ 1 ≤ t.payload := h.2 t (by simp [List.take_cons hleft])
      have hprogress_rest := allProgress_rest h hleft (n := min t.payload left) (by omega)
      obtain ⟨es, rest, hrest⟩ := ih (i + min t.payload left) (left - min t.payload left) hprogress_rest
      exact ⟨_, rest, by rw [runLoop_accepted _ _ _ _ _ _ hleft ht, hrest, Option.map_some]⟩

/-! ## The operations -/

/-- A bound SEND_RUN inside FB is its data run (41_protocol R108). -/
theorem exec_sendRun_of_inside {s : State} {off len : Field24} (hbound : s.mode ≠ .uninit)
    (hinside : off.toNat + len.toNat ≤ s.cfg.geometry.fbLen) :
    exec (.sendRun off len) s = finishIo (frameRun s.addr s.fb off.toNat len.toNat s.answers) s := by
  rw [exec, execSendRun, if_neg hbound, if_neg (by omega)]

theorem exec_sendRun_of_outside {s : State} {off len : Field24} (hbound : s.mode ≠ .uninit)
    (houtside : s.cfg.geometry.fbLen < off.toNat + len.toNat) :
    exec (.sendRun off len) s = .next { s with fault := 0x03#8 } := by
  rw [exec, execSendRun, if_neg hbound, if_pos houtside]; rfl

/-- Settles O45: the run passes by the progress premise, and a passing run carries its slice. -/
theorem sendRunSendsItsSlice : Obligations.SendRunSendsItsSlice := by
  intro s off len hbound hinside hprogress
  obtain ⟨es, rest, hrun⟩ := runLoop_passes s.addr s.fb s.answers off.toNat len.toNat hprogress
  obtain ⟨hslice, -⟩ := dataRunProperties _ _ _ _ _ _ hrun
  refine ⟨es, rest, ?_, runLoop_rest _ _ _ _ _ _ hrun, hslice rfl⟩
  rw [exec_sendRun_of_inside hbound hinside, frameRun, hrun, finishIo_some, ioStatus_false]

/-- Settles O46: the run goes on up to the failing answer, which ends it. -/
theorem sendRunStopsAtFirstFailure : Obligations.SendRunStopsAtFirstFailure := by
  intro s off len good rest bad hbound hinside hanswers hgood hbad hsum
  obtain ⟨es, hes, hrun⟩ := runLoop_after_success s.addr s.fb good off.toNat len.toNat hgood hsum
  refine ⟨es, ?_, hes⟩
  rw [exec_sendRun_of_inside hbound hinside, frameRun, hanswers, hrun, runLoop_failed _ _ _ _ _ _ (by omega) hbad,
    Option.map_some, finishIo_some, ioStatus_true, List.append_assoc]

/-- Settles O48: the run has bytes left when the answers are used up. -/
theorem sendRunWithoutProgressHangs : Obligations.SendRunWithoutProgressHangs := by
  intro s off len hbound hinside hgood hsum
  obtain ⟨es, -, hrun⟩ := runLoop_after_success s.addr s.fb s.answers off.toNat len.toNat hgood hsum
  have hhang : frameRun s.addr s.fb off.toNat len.toNat s.answers = none := by
    rw [frameRun, ← s.answers.append_nil, hrun, runLoop_unanswered _ _ _ _ (by omega), Option.map_none]
  rw [exec_sendRun_of_inside hbound hinside, hhang, finishIo_none]

/-- Settles O47: an empty run is done at once, and the range check comes before any traffic. -/
theorem sendRunCorners : Obligations.SendRunCorners := by
  refine fun s off len hbound => ⟨fun hlen hoff => ?_, exec_sendRun_of_outside hbound⟩
  rw [exec_sendRun_of_inside hbound (by omega), frameRun, hlen, runLoop_done, finishIo_some, ioStatus_false,
    List.append_nil]

/-- What SEND_CMD and SEND_DATA do, by the discriminator of their format (41_protocol R106, R107). -/
def sendByte (d b : Byte) (s : State) : Result :=
  if s.mode = .uninit then raise .unbound s else finishIo (frameByte s.addr d b s.answers) s

theorem exec_sendCmd (b : Byte) (s : State) : exec (.sendCmd b) s = sendByte 0x00#8 b s := rfl

theorem exec_sendData (b : Byte) (s : State) : exec (.sendData b) s = sendByte 0x40#8 b s := rfl

theorem sendByte_of_unbound {s : State} (d b : Byte) (hunbound : s.mode = .uninit) :
    sendByte d b s = .next { s with fault := 0x04#8 } := by
  rw [sendByte, if_pos hunbound]; rfl

/-- A bound block frames the byte and reports the answer's status (41_protocol R101, R102). -/
theorem sendByte_of_bound {s : State} {t : TxAnswer} {rest : List TxAnswer} (d b : Byte) (hbound : s.mode ≠ .uninit)
    (hanswers : s.answers = t :: rest) :
    sendByte d b s = .next { s with
      trace := s.trace ++ transaction s.addr d [b] (min t.disc 1) (min t.payload 1) t.status
      answers := rest, status := if t.status = 0 then .ok else .ioError, pos := s.pos + 1 } := by
  have hstatus : ioStatus (t.status != 0) = if t.status = 0 then .ok else .ioError := by
    by_cases ht : t.status = 0 <;> simp [ioStatus, ht]
  rw [sendByte, if_neg hbound, hanswers, frameByte_cons, finishIo_some, hstatus]

/-- Settles O41: the operation frames its byte behind the command discriminator. -/
theorem sendCmdFramesACommand : Obligations.SendCmdFramesACommand := by
  refine ⟨fun s b hunbound => ?_, fun s b t rest hbound hanswers => ?_,
    fun w hop hset => decode_illegal_reservedBits (by omega) (by omega) hset⟩
  · rw [exec_sendCmd, sendByte_of_unbound _ _ hunbound]
  · rw [exec_sendCmd, sendByte_of_bound _ _ hbound hanswers]

/-- Settles O42: the operation frames its byte behind the data discriminator. -/
theorem sendDataFramesAByte : Obligations.SendDataFramesAByte := by
  refine ⟨fun s b hunbound => ?_, fun s b t rest hbound hanswers => ?_,
    fun w hop hset => decode_illegal_reservedBits (by omega) (by omega) hset⟩
  · rw [exec_sendData, sendByte_of_unbound _ _ hunbound]
  · rw [exec_sendData, sendByte_of_bound _ _ hbound hanswers]

/-- Settles O43: unbound it answers 0 at once; bound the answer's status decides RESULT alone. -/
theorem probeReportsAcknowledge : Obligations.ProbeReportsAcknowledge := by
  refine ⟨fun s hunbound => ?_, fun s t rest hbound hanswers => ?_,
    fun w hop hset => decode_illegal_reservedBits (by omega) (by omega) hset⟩
  · rw [exec, execProbe, if_pos hunbound]; rfl
  · rw [exec, execProbe, if_neg hbound, hanswers]; rfl

end Sys2Proof.Machine
end

section
/-!
PROOFS. The transform family. The canvas of a rotation is the preimage of the active area under the rule's mapping
(`inCanvas_iff_rotated`, 42_transform R121), `unrotated` inverts that mapping (R123), and Resolve is the mapping on the
canvas and ERR off it. The statements about Resolve, RESOLVE and SET_ROTATION (R122 to R126) are read off these.
-/

namespace Sys2Proof.Machine

open Sys2Proof.Claims

/-! ## The mapping and its canvas (42_transform R120, R121) -/

theorem rotationCode_lt_four_iff (r : Byte) : r.toNat < 4 ↔ r = 0#8 ∨ r = 1#8 ∨ r = 2#8 ∨ r = 3#8 := by
  revert r; decide

theorem rotationCode_lt_four_of_inCanvas {g : Geometry} {x y : Int} {r : Byte} (h : inCanvas g x y r) :
    r.toNat < 4 := by
  obtain ⟨rfl | rfl, -⟩ | ⟨rfl | rfl, -⟩ := h <;> decide

/-- The canvas of a rotation is what its mapping takes into the active area. -/
theorem inCanvas_iff_rotated (g : Geometry) (x y : Int) {r : Byte} (hr : r.toNat < 4) :
    inCanvas g x y r ↔ (0 ≤ (rotated g x y r).1 ∧ (rotated g x y r).1 < g.aw) ∧
      0 ≤ (rotated g x y r).2 ∧ (rotated g x y r).2 < g.ah := by
  obtain rfl | rfl | rfl | rfl := (rotationCode_lt_four_iff r).1 hr
  all_goals
    simp [inCanvas, rotated]
    omega

/-- A column or row mirrored twice is itself. -/
theorem mirror_mirror (n z : Int) : n - (n - z - 1) - 1 = z := by omega

theorem rotated_unrotated (g : Geometry) (xp yp : Int) (r : Byte) :
    rotated g (unrotated g xp yp r).1 (unrotated g xp yp r).2 r = (xp, yp) := by
  unfold rotated unrotated
  split_ifs <;> simp only [mirror_mirror]

theorem unrotated_rotated (g : Geometry) (x y : Int) (r : Byte) :
    unrotated g (rotated g x y r).1 (rotated g x y r).2 r = (x, y) := by
  unfold rotated unrotated
  split_ifs <;> simp only [mirror_mirror]

/-! ## What Resolve answers -/

/-- On the canvas Resolve is the mapping. -/
theorem resolvePanel_of_inCanvas {g : Geometry} {x y : Int} {r : Byte} (h : inCanvas g x y r) :
    resolvePanel g x y r = some ⟨(rotated g x y r).1.toNat, (rotated g x y r).2.toNat⟩ := by
  obtain ⟨rfl | rfl, hbounds⟩ | ⟨rfl | rfl, hbounds⟩ := h
  all_goals simp [resolvePanel, rotated, hbounds]

theorem inCanvas_of_resolvePanel_eq_some {g : Geometry} {x y : Int} {r : Byte} {p : PanelPos}
    (h : resolvePanel g x y r = some p) : inCanvas g x y r := by
  unfold resolvePanel at h
  split_ifs at h with h0 hbounds h1 hbounds h2 hbounds h3 hbounds
  · exact .inl ⟨.inl h0, hbounds⟩
  · exact .inr ⟨.inl h1, hbounds⟩
  · exact .inl ⟨.inr h2, hbounds⟩
  · exact .inr ⟨.inr h3, hbounds⟩

/-- Off the canvas Resolve is ERR. -/
theorem resolvePanel_of_not_inCanvas {g : Geometry} {x y : Int} {r : Byte} (h : ¬ inCanvas g x y r) :
    resolvePanel g x y r = none :=
  Option.eq_none_iff_forall_ne_some.2 fun _ hp => h (inCanvas_of_resolvePanel_eq_some hp)

theorem resolvePanel_of_four_le {g : Geometry} {x y : Int} {r : Byte} (hr : 4 ≤ r.toNat) :
    resolvePanel g x y r = none :=
  resolvePanel_of_not_inCanvas fun h => absurd (rotationCode_lt_four_of_inCanvas h) (Nat.not_lt.2 hr)

/-! ## The operations -/

theorem exec_resolve_of_some {s : State} {x y : Half} {p : PanelPos}
    (h : resolvePanel s.cfg.geometry x.toInt y.toInt s.rot = some p) :
    exec (.resolve x y) s = .next { s with result := p.packed, status := .ok, pos := s.pos + 1 } := by
  rw [exec, execResolve, sint16_eq_toInt, sint16_eq_toInt, h]; rfl

theorem exec_resolve_of_none {s : State} {x y : Half}
    (h : resolvePanel s.cfg.geometry x.toInt y.toInt s.rot = none) :
    exec (.resolve x y) s = .next { s with status := .invalidArgument, pos := s.pos + 1 } := by
  rw [exec, execResolve, sint16_eq_toInt, sint16_eq_toInt, h]; rfl

theorem exec_pixel_of_none {s : State} {c x y : Half} (hready : s.ready = true) (hmode : s.mode = .buffered)
    (h : resolvePanel s.cfg.geometry x.toInt y.toInt s.rot = none) :
    exec (.pixel c x y) s = .next { s with status := .invalidArgument, pos := s.pos + 1 } := by
  rw [exec, execPixel, if_neg (by simp [hready]), if_neg (not_not.2 hmode), sint16_eq_toInt, sint16_eq_toInt, h]; rfl

/-- RESULT as one number: the row has its 16 bits, and a column beyond them is cut off either way (10_state R27). -/
theorem PanelPos.packed_eq_ofInt (p : PanelPos) (hrow : p.yp < 65536) :
    p.packed = BitVec.ofInt 32 (p.xp * 65536 + p.yp) := by
  have hnum : BitVec.ofInt 32 (p.xp * 65536 + p.yp) = BitVec.ofNat 32 (p.xp * 65536 + p.yp) := by
    exact_mod_cast BitVec.ofInt_natCast 32 (p.xp * 65536 + p.yp)
  apply BitVec.eq_of_toNat_eq
  rw [hnum, PanelPos.packed, BitVec.toNat_append, ← Nat.shiftLeft_add_eq_or_of_lt (BitVec.isLt _),
    Nat.shiftLeft_eq]
  simp only [BitVec.toNat_ofNat]
  omega

theorem Geometry.ah_lt (g : Geometry) : g.ah < 65536 := by
  have hok := g.ok
  omega

/-! ## The obligations -/

/-- Settles O28: on the canvas Resolve answers, and what it answers lies in the active area. -/
theorem resolveStaysInActiveArea : Obligations.ResolveStaysInActiveArea := fun _ _ _ _ h =>
  ⟨_, resolvePanel_of_inCanvas h, resolvePanel_lt (resolvePanel_of_inCanvas h)⟩

/-- Settles O29: the mapping and the rule's inverse undo each other. -/
theorem resolveIsABijection : Obligations.ResolveIsABijection := by
  refine fun g r hr => ⟨fun p hx hy => ?_, fun x y p hcanvas hp => ?_⟩
  · have hcanvas : inCanvas g (unrotated g p.xp p.yp r).1 (unrotated g p.xp p.yp r).2 r := by
      rw [inCanvas_iff_rotated _ _ _ hr, rotated_unrotated]
      omega
    refine ⟨hcanvas, ?_⟩
    rw [resolvePanel_of_inCanvas hcanvas, rotated_unrotated]
    rfl
  · obtain ⟨hx, hy⟩ := resolvePanel_lt hp
    obtain ⟨⟨hcol, -⟩, hrow, -⟩ := (inCanvas_iff_rotated g x y hr).1 hcanvas
    obtain rfl := Option.some.inj ((resolvePanel_of_inCanvas hcanvas).symm.trans hp)
    refine ⟨hx, hy, ?_⟩
    rw [Int.toNat_of_nonneg hcol, Int.toNat_of_nonneg hrow, unrotated_rotated]

/-- Settles O30: a code of 4 or more has no canvas. -/
theorem resolveRejectsTheRest : Obligations.ResolveRejectsTheRest := fun _ _ _ _ =>
  ⟨resolvePanel_of_not_inCanvas, resolvePanel_of_four_le⟩

/-- Settles O31: the packed coordinate is the number, since no row needs more than 16 bits. -/
theorem resolveReportsPanelCoordinate : Obligations.ResolveReportsPanelCoordinate := by
  refine fun s x y => ⟨fun hcanvas => ?_, fun h => exec_resolve_of_none (resolvePanel_of_not_inCanvas h)⟩
  have hp := resolvePanel_of_inCanvas hcanvas
  obtain ⟨⟨hcol, -⟩, hrow, -⟩ :=
    (inCanvas_iff_rotated _ _ _ (rotationCode_lt_four_of_inCanvas hcanvas)).1 hcanvas
  rw [exec_resolve_of_some hp, PanelPos.packed_eq_ofInt _ ((resolvePanel_lt hp).2.trans (Geometry.ah_lt _)),
    Int.toNat_of_nonneg hcol, Int.toNat_of_nonneg hrow]

/-- Settles O32: the code is stored unread, and one of 4 or more makes Resolve ERR. -/
theorem setRotationStoresTheCode : Obligations.SetRotationStoresTheCode := by
  refine ⟨fun s b => rfl, fun s hr => ⟨fun x y => ?_, fun hready hmode c x y => ?_⟩,
    fun w hop hset => decode_illegal_reservedBits (by omega) (by omega) hset⟩
  · exact exec_resolve_of_none (resolvePanel_of_four_le hr)
  · exact exec_pixel_of_none hready hmode (resolvePanel_of_four_le hr)

end Sys2Proof.Machine
end

section
/-!
PROOFS. The framebuffer family. `Memory.write_write_same` and `Memory.write_comm` are equalities of the lists themselves,
canonical or not, so bit writes are idempotent and commute as states (43_framebuffer R141). What a bit write does to one byte
and leaves of the others (R140) is said once, and so is the check that PIXEL, PSET_RAW, CLEAR and FLUSH begin with
(R147, 60_exceptions R205).
-/

namespace Sys2Proof.Machine

open Sys2Proof.Claims

/-! ## Writes of bytes as list equalities -/

theorem Memory.write_cons_of_lt (m : Memory) (u v : Byte) {a d : Nat} (h : a < d) :
    Memory.write ((d, u) :: m) a v = (a, v) :: (d, u) :: m := if_pos h

theorem Memory.write_cons_self (m : Memory) (u v : Byte) (a : Nat) :
    Memory.write ((a, u) :: m) a v = (a, v) :: m := by simp [Memory.write]

theorem Memory.write_cons_of_gt (m : Memory) (u v : Byte) {a d : Nat} (h : d < a) :
    Memory.write ((d, u) :: m) a v = (d, u) :: Memory.write m a v := by
  rw [Memory.write, if_neg (by omega), if_neg (by omega)]

/-- Of two writes of one byte the later one stays. -/
theorem Memory.write_write_same (m : Memory) (a : Nat) (v w : Byte) : (m.write a v).write a w = m.write a w := by
  induction m with
  | nil => exact Memory.write_cons_self _ _ _ _
  | cons c m ih =>
    obtain ⟨d, u⟩ := c
    obtain h | rfl | h := lt_trichotomy a d
    · rw [Memory.write_cons_of_lt _ _ _ h, Memory.write_cons_of_lt _ _ _ h, Memory.write_cons_self]
    · rw [Memory.write_cons_self, Memory.write_cons_self, Memory.write_cons_self]
    · rw [Memory.write_cons_of_gt _ _ _ h, Memory.write_cons_of_gt _ _ _ h, Memory.write_cons_of_gt _ _ _ h, ih]

/-- The lower address is written in front of the higher one, in either order. -/
theorem Memory.write_comm_of_lt (m : Memory) {a b : Nat} (v w : Byte) (hab : a < b) :
    (m.write a v).write b w = (m.write b w).write a v := by
  induction m with
  | nil => simp [Memory.write, hab, hab.ne', hab.not_gt]
  | cons c m ih =>
    obtain ⟨d, u⟩ := c
    obtain had | rfl | hda := lt_trichotomy a d
    · rw [Memory.write_cons_of_lt _ _ _ had, Memory.write_cons_of_gt _ _ _ hab]
      obtain hbd | rfl | hdb := lt_trichotomy b d
      · rw [Memory.write_cons_of_lt _ _ _ hbd, Memory.write_cons_of_lt _ _ _ hab]
      · rw [Memory.write_cons_self, Memory.write_cons_of_lt _ _ _ hab]
      · rw [Memory.write_cons_of_gt _ _ _ hdb, Memory.write_cons_of_lt _ _ _ had]
    · rw [Memory.write_cons_self, Memory.write_cons_of_gt _ _ _ hab, Memory.write_cons_of_gt _ _ _ hab,
        Memory.write_cons_self]
    · have hdb : d < b := hda.trans hab
      rw [Memory.write_cons_of_gt _ _ _ hda, Memory.write_cons_of_gt _ _ _ hdb, Memory.write_cons_of_gt _ _ _ hdb,
        Memory.write_cons_of_gt _ _ _ hda, ih]

theorem Memory.write_comm (m : Memory) {a b : Nat} (v w : Byte) (hab : a ≠ b) :
    (m.write a v).write b w = (m.write b w).write a v := by
  obtain h | h := Nat.lt_or_gt_of_ne hab
  · exact Memory.write_comm_of_lt m v w h
  · exact (Memory.write_comm_of_lt m w v h).symm

/-! ## Writes of one bit in a byte -/

theorem setBit_setBit_same (v : Byte) {k : Nat} (on : Bool) (hk : k < 8) :
    setBit (setBit v k on) k on = setBit v k on := by
  refine BitVec.eq_of_getLsbD_eq fun j _ => ?_
  simp only [setBit_getLsbD _ _ _ _ hk]
  split_ifs <;> rfl

theorem setBit_comm (v : Byte) {k l : Nat} (on on' : Bool) (hk : k < 8) (hl : l < 8) (hkl : k ≠ l) :
    setBit (setBit v k on) l on' = setBit (setBit v l on') k on := by
  refine BitVec.eq_of_getLsbD_eq fun j _ => ?_
  simp only [setBit_getLsbD _ _ _ _ hk, setBit_getLsbD _ _ _ _ hl]
  by_cases hj : j = k
  · simp [hj, hkl]
  · simp [hj]

/-! ## `FbWriteBit` (43_framebuffer R140, R141, R143) -/

/-- No bit of `m` differs from `m0` but the one that holds the pixel `p`. -/
def SameExceptBit (g : Geometry) (p : PanelPos) (m0 m : Memory) : Prop :=
  (∀ a, a ≠ p.byteIndex g → m.read a = m0.read a) ∧
  ∀ j, j ≠ p.bitIndex → (m.read (p.byteIndex g)).getLsbD j = (m0.read (p.byteIndex g)).getLsbD j

theorem SameExceptBit.refl (g : Geometry) (p : PanelPos) (m : Memory) : SameExceptBit g p m m :=
  ⟨fun _ _ => rfl, fun _ _ => rfl⟩

section BitWrite

variable (p : PanelPos) (on : Bool) (s : State)

/-- A bit write is a change of FB and of nothing else. -/
theorem fbWriteBit_eq_with_fb : fbWriteBit p on s = { s with fb := (fbWriteBit p on s).fb } := rfl

theorem read_fbWriteBit_of_ne {a : Nat} (ha : a ≠ p.byteIndex s.cfg.geometry) :
    (fbWriteBit p on s).fb.read a = s.fb.read a :=
  Memory.read_write_other _ _ _ _ ha

theorem getLsbD_read_fbWriteBit (j : Nat) :
    ((fbWriteBit p on s).fb.read (p.byteIndex s.cfg.geometry)).getLsbD j =
      if j = p.bitIndex then on else (s.fb.read (p.byteIndex s.cfg.geometry)).getLsbD j := by
  rw [fbWriteBit_fb, Memory.read_write_same, setBit_getLsbD _ _ _ _ p.bitIndex_lt]

theorem fbReadBit_fbWriteBit_same : fbReadBit p (fbWriteBit p on s) = on := by
  rw [fbReadBit, fbWriteBit_cfg, getLsbD_read_fbWriteBit, if_pos rfl]

theorem fbWriteBit_sameExceptBit : SameExceptBit s.cfg.geometry p s.fb (fbWriteBit p on s).fb :=
  ⟨fun _ => read_fbWriteBit_of_ne p on s, fun j hj => by rw [getLsbD_read_fbWriteBit, if_neg hj]⟩

theorem fbWriteBit_oneBitWritten : OneBitWritten s.cfg.geometry p on s.fb (fbWriteBit p on s).fb :=
  have hframe := fbWriteBit_sameExceptBit p on s
  ⟨fbReadBit_fbWriteBit_same p on s, hframe.2, hframe.1⟩

/-- Twice is once. -/
theorem fbWriteBit_fbWriteBit_same : fbWriteBit p on (fbWriteBit p on s) = fbWriteBit p on s := by
  have hfb : (fbWriteBit p on (fbWriteBit p on s)).fb = (fbWriteBit p on s).fb := by
    simp only [fbWriteBit_fb, fbWriteBit_cfg]
    rw [Memory.read_write_same, setBit_setBit_same _ _ p.bitIndex_lt, Memory.write_write_same]
  rw [fbWriteBit_eq_with_fb p on (fbWriteBit p on s), hfb]

/-- Writes of different pixels go to different bytes, or to different bits of one byte. -/
theorem fbWriteBit_comm {q : PanelPos} (on' : Bool) (hp : p.xp < s.cfg.geometry.aw) (hq : q.xp < s.cfg.geometry.aw)
    (hne : q ≠ p) : fbWriteBit p on (fbWriteBit q on' s) = fbWriteBit q on' (fbWriteBit p on s) := by
  have hfb : (fbWriteBit p on (fbWriteBit q on' s)).fb = (fbWriteBit q on' (fbWriteBit p on s)).fb := by
    simp only [fbWriteBit_fb, fbWriteBit_cfg]
    by_cases hbyte : q.byteIndex s.cfg.geometry = p.byteIndex s.cfg.geometry
    · have hbit : q.bitIndex ≠ p.bitIndex := fun h => hne (PanelPos.byteIndex_bitIndex_inj hp hq hbyte h)
      rw [hbyte]
      simp only [Memory.read_write_same, Memory.write_write_same]
      rw [setBit_comm _ _ _ q.bitIndex_lt p.bitIndex_lt hbit]
    · rw [Memory.read_write_other _ _ _ _ hbyte, Memory.read_write_other _ _ _ _ (Ne.symm hbyte),
        Memory.write_comm _ _ _ hbyte]
  rw [fbWriteBit_eq_with_fb p on (fbWriteBit q on' s), hfb]
  rfl

end BitWrite

/-! ## The operations -/

section Operations

variable {s : State} {c x y : Half}

/-- The check the four framebuffer operations begin with passes in a ready buffered block. -/
theorem bufferedCheck_passes (r : Result) (hready : s.ready = true) (hmode : s.mode = .buffered) :
    (if s.ready = false then raise .notReady s else if s.mode ≠ .buffered then finish .unsupported s else r) = r := by
  rw [if_neg (by simp [hready]), if_neg (not_not.2 hmode)]

/-- In a ready block of another mode it answers UNSUPPORTED (43_framebuffer R147). -/
theorem bufferedCheck_unsupported (r : Result) (hready : s.ready = true) (hmode : s.mode ≠ .buffered) :
    (if s.ready = false then raise .notReady s else if s.mode ≠ .buffered then finish .unsupported s else r) =
      .next { s with status := .unsupported, pos := s.pos + 1 } := by
  rw [if_neg (by simp [hready]), if_pos hmode, finish]

theorem exec_psetRaw_of_inside (hready : s.ready = true) (hmode : s.mode = .buffered)
    (hx : x.toNat < s.cfg.geometry.aw) (hy : y.toNat < s.cfg.geometry.ah) :
    exec (.psetRaw c x y) s = .next { s with
      fb := (fbWriteBit ⟨x.toNat, y.toNat⟩ (colorOn c) s).fb, status := .ok, pos := s.pos + 1 } := by
  rw [exec, execPsetRaw, bufferedCheck_passes _ hready hmode, if_neg (by omega)]
  rfl

theorem exec_psetRaw_of_outside (hready : s.ready = true) (hmode : s.mode = .buffered)
    (hout : s.cfg.geometry.aw ≤ x.toNat ∨ s.cfg.geometry.ah ≤ y.toNat) :
    exec (.psetRaw c x y) s = .next { s with fault := 0x03#8 } := by
  rw [exec, execPsetRaw, bufferedCheck_passes _ hready hmode, if_pos hout]
  rfl

theorem exec_clear_of_buffered (hready : s.ready = true) (hmode : s.mode = .buffered) :
    exec .clear s = .next { s with
      fb := s.fb.clearUpTo s.cfg.geometry.fbLen, status := .ok, pos := s.pos + 1 } := by
  rw [exec, execClear, bufferedCheck_passes _ hready hmode]
  rfl

end Operations

/-! ## The obligations -/

/-- Settles O34: different pixels of the active columns differ in their byte or in their bit. -/
theorem bitWritesDoNotInterfere : Obligations.BitWritesDoNotInterfere := by
  intro s p on hx _
  obtain ⟨hbytes, hbits⟩ := fbWriteBit_sameExceptBit p on s
  exact ⟨fun q hqx _ hne => fbReadBit_fbWriteBit_of_ne on hx hqx hne, hbits, hbytes,
    fbWriteBit_fbWriteBit_same p on s, fun q on' hqx _ hne => fbWriteBit_comm p on s on' hx hqx hne⟩

/-- Settles O35: the byte exists because the active rows lie in the pages of FB. -/
theorem bitWriteWritesItsBit : Obligations.BitWriteWritesItsBit := fun s p on hx hy =>
  ⟨p.byteIndex_lt _ hx (hy.trans_le (Geometry.ah_le_rows _)), fbWriteBit_eq_with_fb p on s,
    fbWriteBit_oneBitWritten p on s, fbReadBit_fbWriteBit_same p on s⟩

/-- Settles O36: inside the active area it is one bit write, outside it is F_FB_RANGE. -/
theorem psetRawWritesOneBit : Obligations.PsetRawWritesOneBit := by
  refine fun s c x y hready hmode => ⟨fun hx hy => ⟨_, exec_psetRaw_of_inside hready hmode hx hy, ?_⟩,
    exec_psetRaw_of_outside hready hmode⟩
  rw [← colorOn_eq]
  exact fbWriteBit_oneBitWritten _ _ _

/-- Settles O38: FB is cleared up to FB_LEN, and every pixel, padding rows included, has its byte below it. -/
theorem clearZeroesTheFramebuffer : Obligations.ClearZeroesTheFramebuffer := by
  refine fun s hready hmode => ⟨_, exec_clear_of_buffered hready hmode, rfl, fun i => Memory.read_clearUpTo_below _ _ i,
    fun i => Memory.read_clearUpTo_above _ _ i, fun p hx hy => ?_, rfl⟩
  rw [fbReadBit, Memory.read_clearUpTo_below _ _ _ (p.byteIndex_lt _ hx hy), BitVec.getLsbD_zero]

/-- Settles O15: each end of an operation is one bit write, the clearing of FB, or no store at all. -/
theorem framebufferStoresStayInPlace : Obligations.FramebufferStoresStayInPlace := by
  refine ⟨fun c x y s t h => ?_, fun c x y s t p h hp => ?_, fun s t h a ha => ?_⟩
  · obtain ⟨-, rfl⟩ | ⟨-, -, rfl⟩ | ⟨-, -, -, rfl⟩ | ⟨-, -, p, hp, rfl⟩ := execPixel_eq_next c x y s t h
    · exact ⟨fun _ _ => rfl, fun q _ => SameExceptBit.refl _ q _⟩
    · exact ⟨fun _ _ => rfl, fun q _ => SameExceptBit.refl _ q _⟩
    · exact ⟨fun _ _ => rfl, fun q _ => SameExceptBit.refl _ q _⟩
    · refine ⟨fun hnone => ?_, fun q hq => ?_⟩
      · cases hnone.symm.trans hp
      · obtain rfl := Option.some.inj (hp.symm.trans hq)
        exact fbWriteBit_sameExceptBit p (colorOn c) s
  · subst hp
    obtain ⟨-, rfl⟩ | ⟨-, -, rfl⟩ | ⟨-, -, -, rfl⟩ | ⟨-, -, -, -, rfl⟩ := execPsetRaw_eq_next c x y s t h
    · exact SameExceptBit.refl _ _ _
    · exact SameExceptBit.refl _ _ _
    · exact SameExceptBit.refl _ _ _
    · exact fbWriteBit_sameExceptBit _ (colorOn c) s
  · obtain ⟨-, rfl⟩ | ⟨-, -, rfl⟩ | ⟨-, -, rfl⟩ := execClear_eq_next s t h
    · rfl
    · rfl
    · exact Memory.read_clearUpTo_above _ _ _ ha

/-- Settles O40: the four operations begin with one check, which a mode that is not BUFFERED does not pass. -/
theorem unbufferedModeIsUnsupported : Obligations.UnbufferedModeIsUnsupported := by
  intro s hready hmode
  have hmode' : s.mode ≠ .buffered := by simp [hmode]
  exact ⟨fun _ _ _ => bufferedCheck_unsupported _ hready hmode',
    fun _ _ _ => bufferedCheck_unsupported _ hready hmode',
    bufferedCheck_unsupported _ hready hmode', bufferedCheck_unsupported _ hready hmode'⟩

end Sys2Proof.Machine
end

section
/-!
PROOFS. The sequencer family. `runScript_frames_every_item`, `runScript_stops_at_failure` and
`allSucceed_of_runScript_passes` say what the transport's answers make of a script (44_sequencer R161), in the terms the
statements are written in (`busItems`, `scriptEvents`, `AllSucceed`). SETUP (R160) and FLUSH (R167) are then one equation
each, and the statements about them are read off these.
-/

namespace Sys2Proof.Machine

open Sys2Proof.Claims

/-! ## Scripts cut in two -/

theorem busItems_append (xs ys : List ScriptItem) : busItems (xs ++ ys) = busItems xs + busItems ys := by
  induction xs with
  | nil => exact (Nat.zero_add _).symm
  | cons x xs ih => cases x <;> simp only [List.cons_append, busItems, ih] <;> omega

theorem busItems_cons (x : ScriptItem) (xs : List ScriptItem) : busItems (x :: xs) = busItems [x] + busItems xs :=
  busItems_append [x] xs

/-- P_FLUSH_PREFIX has no waits, so each of its items is one transaction (44_sequencer R166). -/
theorem busItems_map_toScript (items : List PrefixItem) : busItems (items.map PrefixItem.toScript) = items.length := by
  induction items with
  | nil => rfl
  | cons x items ih => cases x <;> exact congrArg (· + 1) ih

/-- The second part of a script gets the answers that the first part leaves. -/
theorem scriptEvents_append (a : BusAddr) (xs ys : List ScriptItem) : ∀ ts : List TxAnswer,
    busItems xs ≤ ts.length →
    scriptEvents a (xs ++ ys) ts = scriptEvents a xs ts ++ scriptEvents a ys (ts.drop (busItems xs)) := by
  induction xs with
  | nil => intro ts _; rfl
  | cons x xs ih =>
    intro ts h
    cases x with
    | wait ms => exact congrArg (_ :: ·) (ih ts h)
    | cmd b | data b =>
      cases ts with
      | nil => exact absurd h (Nat.not_succ_le_zero _)
      | cons t ts =>
        have hxs := ih ts (Nat.le_of_succ_le_succ h)
        simp only [List.cons_append, scriptEvents, busItems, hxs, List.append_assoc, List.drop_succ_cons]

theorem scriptEvents_cons (a : BusAddr) (x : ScriptItem) (xs : List ScriptItem) {ts : List TxAnswer}
    (h : busItems [x] ≤ ts.length) :
    scriptEvents a (x :: xs) ts = scriptEvents a [x] ts ++ scriptEvents a xs (ts.drop (busItems [x])) :=
  scriptEvents_append a [x] xs ts h

/-- A script reads no answer beyond its own transactions'. -/
theorem scriptEvents_answers_append (a : BusAddr) (items : List ScriptItem) (ts' : List TxAnswer) :
    ∀ ts : List TxAnswer, busItems items ≤ ts.length → scriptEvents a items (ts ++ ts') = scriptEvents a items ts := by
  induction items with
  | nil => intro ts _; rfl
  | cons x items ih =>
    intro ts h
    cases x with
    | wait ms => exact congrArg (_ :: ·) (ih ts h)
    | cmd b | data b =>
      cases ts with
      | nil => exact absurd h (Nat.not_succ_le_zero _)
      | cons t ts => exact congrArg (_ ++ ·) (ih ts (Nat.le_of_succ_le_succ h))

/-- Running a script in two parts: the second one goes on with the error and the answers that the first one leaves, and
does nothing if the policy has stopped that one (44_sequencer R161). -/
theorem runScript_append (p : ErrPolicy) (a : BusAddr) (xs ys : List ScriptItem) :
    ∀ (err : Bool) (ts : List TxAnswer), runScript p a (xs ++ ys) err ts =
      (runScript p a xs err ts).bind (fun r =>
        (runScript p a ys r.failed r.rest).map (fun r' => ⟨r'.failed, r.events ++ r'.events, r'.rest⟩)) := by
  induction xs with
  | nil => intro err ts; exact (Option.map_id' ..).symm
  | cons x xs ih =>
    intro err ts
    by_cases hstop : p = .failFast ∧ err = true
    · obtain ⟨rfl, rfl⟩ := hstop
      simp only [runScript_stop, Option.bind_some, Option.map_some, List.append_nil]
    · rw [List.cons_append, runScript_cons _ _ _ _ _ _ hstop, runScript_cons _ _ _ _ _ _ hstop]
      cases frameItem a x ts with
      | none => rfl
      | some r =>
        simp only [Option.bind_some, ih]
        cases runScript p a xs (err || r.failed) r.rest with
        | none => rfl
        | some r' => simp [Option.map_map, Function.comp_def, List.append_assoc]

/-! ## Answers that succeed -/

theorem allSucceed_iff (ts : List TxAnswer) (n : Nat) :
    AllSucceed ts n ↔ n ≤ ts.length ∧ (ts.take n).any txFailed = false := by
  simp [AllSucceed, List.any_eq_false]

theorem allSucceed_add_iff (ts : List TxAnswer) (m n : Nat) :
    AllSucceed ts (m + n) ↔ AllSucceed ts m ∧ AllSucceed (ts.drop m) n := by
  have hlen : m + n ≤ ts.length ↔ m ≤ ts.length ∧ n ≤ ts.length - m := by omega
  simp only [allSucceed_iff, List.take_add, List.any_append, Bool.or_eq_false_iff, List.length_drop, hlen]
  exact and_and_and_comm

theorem ioStatus_eq_ok_iff (failed : Bool) : ioStatus failed = .ok ↔ failed = false := by cases failed <;> decide

/-! ## What the answers make of a script (44_sequencer R161) -/

/-- An item that the transport answers is framed, and fails as its transaction does (41_protocol R110). -/
theorem frameItem_of_answered (a : BusAddr) (x : ScriptItem) {ts : List TxAnswer} (h : busItems [x] ≤ ts.length) :
    frameItem a x ts =
      some ⟨(ts.take (busItems [x])).any txFailed, scriptEvents a [x] ts, ts.drop (busItems [x])⟩ := by
  cases x with
  | wait ms => rfl
  | cmd b | data b =>
    cases ts with
    | nil => exact absurd h (Nat.not_succ_le_zero _)
    | cons t ts =>
      exact (frameByte_cons a _ b t ts).trans (by
        simp [busItems, scriptEvents, txFailed, Config.discCmd, Config.discData])

/-- With an answer for each transaction every item is framed, unless the policy stops at a failure. -/
theorem runScript_frames_every_item (p : ErrPolicy) (a : BusAddr) (items : List ScriptItem) :
    ∀ (err : Bool) (ts : List TxAnswer), busItems items ≤ ts.length →
    (p = .accumulate ∨ (err = false ∧ AllSucceed ts (busItems items))) →
    runScript p a items err ts =
      some ⟨err || (ts.take (busItems items)).any txFailed, scriptEvents a items ts, ts.drop (busItems items)⟩ := by
  induction items with
  | nil => intro err ts _ _; simp [busItems, scriptEvents]
  | cons x items ih =>
    intro err ts hlen hgo
    rw [busItems_cons] at hlen hgo ⊢
    have hx : busItems [x] ≤ ts.length := by omega
    have hitems : busItems items ≤ (ts.drop (busItems [x])).length := by rw [List.length_drop]; omega
    have hstop : ¬ (p = .failFast ∧ err = true) := by
      rintro ⟨rfl, rfl⟩
      obtain h | ⟨h, -⟩ := hgo <;> cases h
    have hgo_items : p = .accumulate ∨ ((err || (ts.take (busItems [x])).any txFailed) = false ∧
        AllSucceed (ts.drop (busItems [x])) (busItems items)) := by
      refine hgo.imp_right fun ⟨herr, h⟩ => ?_
      obtain ⟨hfirst, hrest⟩ := (allSucceed_add_iff _ _ _).1 h
      exact ⟨by rw [herr, ((allSucceed_iff _ _).1 hfirst).2]; rfl, hrest⟩
    rw [runScript_cons _ _ _ _ _ _ hstop, frameItem_of_answered a x hx, Option.bind_some, ih _ _ hitems hgo_items,
      Option.map_some, scriptEvents_cons a x items hx, List.take_add, List.any_append, Bool.or_assoc, List.drop_drop]

/-- Under either policy a script whose transactions succeed passes. -/
theorem runScript_of_allSucceed (p : ErrPolicy) (a : BusAddr) {items : List ScriptItem} {ts : List TxAnswer}
    (h : AllSucceed ts (busItems items)) :
    runScript p a items false ts = some ⟨false, scriptEvents a items ts, ts.drop (busItems items)⟩ := by
  obtain ⟨hlen, hpass⟩ := (allSucceed_iff _ _).1 h
  rw [runScript_frames_every_item p a items false ts hlen (.inr ⟨rfl, h⟩), hpass]
  rfl

/-- Under ACCUMULATE a failed transaction leaves the rest of the script to be framed. -/
theorem runScript_accumulate_of_failure (a : BusAddr) {items : List ScriptItem} {ts : List TxAnswer}
    (hlen : busItems items ≤ ts.length) (hfail : ∃ t ∈ ts.take (busItems items), t.status ≠ 0) :
    runScript .accumulate a items false ts = some ⟨true, scriptEvents a items ts, ts.drop (busItems items)⟩ := by
  have hany : (ts.take (busItems items)).any txFailed = true := by simpa [List.any_eq_true] using hfail
  rw [runScript_frames_every_item .accumulate a items false ts hlen (.inl rfl), hany]
  rfl

/-- Under FAIL_FAST the first failed item ends the script. -/
theorem runScript_stops_at_failure (a : BusAddr) {before : List ScriptItem} {x : ScriptItem}
    (after : List ScriptItem) {ts : List TxAnswer} {t : TxAnswer} (hx : busItems [x] = 1)
    (hbefore : AllSucceed ts (busItems before)) (ht : ts[busItems before]? = some t) (hfail : t.status ≠ 0) :
    runScript .failFast a (before ++ x :: after) false ts =
      some ⟨true, scriptEvents a (before ++ [x]) ts, ts.drop (busItems before + 1)⟩ := by
  obtain ⟨hlt, rfl⟩ := List.getElem?_eq_some_iff.1 ht
  have hx_answered : busItems [x] ≤ (ts.drop (busItems before)).length := by rw [hx, List.length_drop]; omega
  have hx_failed : ((ts.drop (busItems before)).take (busItems [x])).any txFailed = true := by
    rw [hx, List.drop_eq_getElem_cons hlt]
    exact List.any_eq_true.2 ⟨_, List.mem_cons_self, (txFailed_eq_true _).2 hfail⟩
  rw [runScript_append, runScript_of_allSucceed _ _ hbefore, Option.bind_some, runScript_cons _ _ _ _ _ _ (by simp),
    frameItem_of_answered a x hx_answered, hx_failed, Option.bind_some, Bool.or_true, runScript_stop,
    scriptEvents_append a before [x] ts hbefore.1, hx, List.drop_drop]
  simp only [Option.map_some, List.append_nil]

/-- An error stays. -/
theorem runScript_failed_of_err (p : ErrPolicy) (a : BusAddr) (items : List ScriptItem) :
    ∀ (ts : List TxAnswer) (r : Sent), runScript p a items true ts = some r → r.failed = true := by
  induction items with
  | nil => intro ts r h; cases h; rfl
  | cons x items ih =>
    intro ts r h
    obtain ⟨-, rfl⟩ | ⟨y, ys, r1, r2, e, -, -, h2, rfl⟩ := runScript_eq_some _ _ _ _ _ _ h
    · rfl
    · cases e
      rw [Bool.true_or] at h2
      exact ih _ r2 h2

/-- A framed item that does not fail took a successful answer, if it took one. -/
theorem allSucceed_of_frameItem_passes {a : BusAddr} {x : ScriptItem} {ts : List TxAnswer} {r : Sent}
    (h : frameItem a x ts = some r) (hpass : r.failed = false) :
    AllSucceed ts (busItems [x]) ∧ r.rest = ts.drop (busItems [x]) := by
  obtain ⟨ms, rfl, rfl⟩ | ⟨b, t, rest, rfl, rfl, rfl⟩ | ⟨b, t, rest, rfl, rfl, rfl⟩ := frameItem_eq_some _ _ _ _ h
  · exact ⟨⟨Nat.zero_le _, by simp [busItems]⟩, rfl⟩
  · exact ⟨by simpa [AllSucceed, busItems] using hpass, rfl⟩
  · exact ⟨by simpa [AllSucceed, busItems] using hpass, rfl⟩

/-- A script that passes had a successful answer for each of its transactions. -/
theorem allSucceed_of_runScript_passes (p : ErrPolicy) (a : BusAddr) (items : List ScriptItem) :
    ∀ (ts : List TxAnswer) (r : Sent), runScript p a items false ts = some r → r.failed = false →
      AllSucceed ts (busItems items) := by
  induction items with
  | nil => intro ts r _ _; exact ⟨Nat.zero_le _, by simp [busItems]⟩
  | cons x items ih =>
    intro ts r h hpass
    obtain ⟨hend | ⟨-, herr⟩, -⟩ | ⟨y, ys, r1, r2, e, -, h1, h2, rfl⟩ := runScript_eq_some _ _ _ _ _ _ h
    · cases hend
    · cases herr
    · cases e
      rw [Bool.false_or] at h2
      have hfirst : r1.failed = false := Bool.eq_false_iff.2 fun hf => by
        rw [hf] at h2
        cases hpass.symm.trans (runScript_failed_of_err _ _ _ _ r2 h2)
      obtain ⟨hx, hrest⟩ := allSucceed_of_frameItem_passes h1 hfirst
      rw [hfirst, hrest] at h2
      rw [busItems_cons, allSucceed_add_iff]
      exact ⟨hx, ih _ _ h2 hpass⟩

/-- A well-formed script holds the sleep-out command with its wait straight after it (44_sequencer R163). -/
theorem exists_sleepOut_wait_of_initScriptWf (b : Byte) (items : List ScriptItem) (h : initScriptWf b items = true) :
    ∃ xs ms ys, items = xs ++ .cmd b :: .wait ms :: ys ∧ 50 ≤ ms := by
  induction items using initScriptWf.induct with
  | case1 c ms rest ih =>
    rw [initScriptWf, Bool.or_eq_true, Bool.and_eq_true, beq_iff_eq, decide_eq_true_eq] at h
    obtain ⟨rfl, hms⟩ | h := h
    · exact ⟨[], ms, rest, rfl, hms⟩
    · obtain ⟨xs, ms', ys, hrest, hms'⟩ := ih h
      exact ⟨.cmd c :: xs, ms', ys, congrArg (_ :: ·) hrest, hms'⟩
  | case2 x rest hx ih =>
    rw [initScriptWf] at h
    · obtain ⟨xs, ms, ys, hrest, hms⟩ := ih h
      exact ⟨x :: xs, ms, ys, congrArg (_ :: ·) hrest, hms⟩
    · exact hx
  | case3 => cases h

/-! ## SETUP (44_sequencer R160) -/

section Setup

variable {s : State} {a : Byte}

theorem exec_setup_of_illegal (ha : addrLegal a = false) :
    exec (.setup a) s = .next { s with status := .invalidArgument, pos := s.pos + 1 } := by
  rw [exec, execSetup, if_pos ha, finish]

/-- SETUP after its script: bound to the address, and ready if the script passed. -/
theorem exec_setup_of_runScript {r : Sent} (ha : addrLegal a = true)
    (hr : runScript s.cfg.errPolicy (a.setWidth 7) s.cfg.initScript false s.answers = some r) :
    exec (.setup a) s = .next { s with
      mode := .buffered, ready := !r.failed, addr := a.setWidth 7, status := ioStatus r.failed, pos := s.pos + 1
      trace := s.trace ++ pulseEvents s.cfg.resetPin ++ r.events ++ (if r.failed then [] else [.delayMs 100])
      answers := r.rest } := by
  rw [← addrBits_eq] at hr ⊢
  rw [exec, execSetup, if_neg (by simp [ha]), hr]
  obtain ⟨failed, es, rest⟩ := r
  cases failed with
  | false => rfl
  | true => rw [if_pos rfl, List.append_nil]; rfl

end Setup

/-- Settles O49. -/
theorem setupRejectsIllegalAddress : Obligations.SetupRejectsIllegalAddress := by
  intro s a ha
  rw [← addrLegal_iff, Bool.not_eq_true] at ha
  exact exec_setup_of_illegal ha

/-- Settles O50: the script passes. -/
theorem setupSucceeds : Obligations.SetupSucceeds := by
  intro s a ha hsucceed
  exact exec_setup_of_runScript ((addrLegal_iff a).2 ha) (runScript_of_allSucceed _ _ hsucceed)

/-- Settles O51: the script fails with every item framed. -/
theorem setupAccumulatesFailures : Obligations.SetupAccumulatesFailures := by
  intro s a ha hpolicy hlen hfail
  have hr := runScript_accumulate_of_failure (a.setWidth 7) hlen hfail
  rw [← hpolicy] at hr
  rw [exec_setup_of_runScript ((addrLegal_iff a).2 ha) hr, if_pos rfl, List.append_nil]
  rfl

/-- Settles O52: the script fails with its items framed up to the failing one. -/
theorem setupFailsFast : Obligations.SetupFailsFast := by
  rintro s a before after x ha hpolicy hscript hx hbefore ⟨t, ht, hfail⟩
  have hr := runScript_stops_at_failure (a.setWidth 7) after hx hbefore ht hfail
  rw [← hpolicy, ← hscript] at hr
  rw [exec_setup_of_runScript ((addrLegal_iff a).2 ha) hr, if_pos rfl, List.append_nil]
  rfl

/-- A SETUP of a legal address that ends with OK had a script that passed. -/
theorem setup_ok_inversion {s t : State} {a : Byte} (ha : addrLegal a = true) (h : exec (.setup a) s = .next t)
    (hok : t.status = .ok) :
    AllSucceed s.answers (busItems s.cfg.initScript) ∧
      t.trace = s.trace ++ pulseEvents s.cfg.resetPin ++
        scriptEvents (a.setWidth 7) s.cfg.initScript s.answers ++ [.delayMs 100] := by
  obtain ⟨hbad, -⟩ | ⟨-, r, hr, rfl⟩ := execSetup_eq_next a s t h
  · cases hbad.symm.trans ha
  · have hpass : r.failed = false := (ioStatus_eq_ok_iff _).1 hok
    have hsucceed := allSucceed_of_runScript_passes _ _ _ _ _ hr hpass
    rw [runScript_of_allSucceed _ _ hsucceed, addrBits_eq] at hr
    obtain rfl := Option.some.inj hr
    exact ⟨hsucceed, rfl⟩

/-- Settles O54: a script that passed framed the sleep-out command successfully, and then its wait. -/
theorem sleepOutIsFollowedByItsWait : Obligations.SleepOutIsFollowedByItsWait := by
  intro s t a ha hwf h hok
  obtain ⟨hsucceed, htrace⟩ := setup_ok_inversion ((addrLegal_iff a).2 ha) h hok
  obtain ⟨xs, ms, ys, hscript, hms⟩ := exists_sleepOut_wait_of_initScriptWf _ _ hwf
  rw [hscript, busItems_append, allSucceed_add_iff] at hsucceed
  obtain ⟨⟨hxs, -⟩, hlen, hstatus⟩ := hsucceed
  obtain ⟨x, rest, hx⟩ := List.exists_cons_of_length_pos (Nat.lt_of_lt_of_le (Nat.succ_pos _) hlen)
  have hx_ok : x.status = 0 := hstatus x (by rw [hx]; exact List.mem_cons_self)
  refine ⟨pulseEvents s.cfg.resetPin ++ scriptEvents (a.setWidth 7) xs s.answers,
    scriptEvents (a.setWidth 7) ys rest ++ [.delayMs 100], min x.disc 1, min x.payload 1, ms, ?_, hms⟩
  rw [htrace, hscript, scriptEvents_append _ _ _ _ hxs, hx]
  simp only [scriptEvents, hx_ok, List.append_assoc, List.cons_append]

/-! ## The lifecycle (44_sequencer R170) -/

theorem phase_eq_of_registers_eq {s t : State} (hmode : t.mode = s.mode) (hready : t.ready = s.ready) :
    t.phase = s.phase := by
  rw [State.phase, State.phase, hmode, hready]

theorem phase_ne_none {s : State} (hs : LifecycleOk s) : s.phase ≠ none := by
  obtain ⟨hmode | hmode, hunbound, -⟩ := hs
  · simp [State.phase, hmode, hunbound hmode]
  · cases hready : s.ready <;> simp [State.phase, hmode, hready]

/-- SETUP with a legal address ends ready with OK, or configured with IO_ERROR. -/
theorem setup_status_phase {s t : State} {a : Byte} (ha : addrLegal a = true) (h : exec (.setup a) s = .next t) :
    (t.status = .ok ∧ t.phase = some .ready) ∨ (t.status = .ioError ∧ t.phase = some .configured) := by
  obtain ⟨hbad, -⟩ | ⟨-, r, -, rfl⟩ := execSetup_eq_next a s t h
  · cases hbad.symm.trans ha
  · cases hf : r.failed
    · exact .inl ⟨rfl, rfl⟩
    · exact .inr ⟨rfl, rfl⟩

/-- Settles O25: only SETUP has the column of MODE and READY, and it writes them with a legal address only. -/
theorem lifecycleTransitions : Obligations.LifecycleTransitions := by
  refine fun i s t hs h => ⟨?legal, ?illegal, ?other, phase_ne_none hs⟩
  case legal =>
    rintro a rfl ha
    exact setup_status_phase ((addrLegal_iff a).2 ha) h
  case illegal =>
    rintro a rfl ha
    rw [setupRejectsIllegalAddress s a ha] at h
    cases h
    rfl
  case other =>
    intro hi
    obtain ⟨hmode, hready, -⟩ | ⟨⟨a, ha⟩, -⟩ := (exec_effect h).lifecycle
    · exact phase_eq_of_registers_eq hmode hready
    · exact absurd ha (hi a)

/-! ## PIXEL (44_sequencer R164) -/

theorem exec_pixel_of_some {s : State} {c x y : Half} {p : PanelPos} (hready : s.ready = true)
    (hmode : s.mode = .buffered) (h : resolvePanel s.cfg.geometry x.toInt y.toInt s.rot = some p) :
    exec (.pixel c x y) s = .next { s with
      fb := (fbWriteBit p (colorOn c) s).fb, status := .ok, pos := s.pos + 1 } := by
  rw [exec, execPixel, bufferedCheck_passes _ hready hmode, sint16_eq_toInt, sint16_eq_toInt, h]
  rfl

/-- Settles O37: on the canvas it is one bit write at the mapped pixel, off it Resolve is ERR. -/
theorem pixelWritesItsMappedBit : Obligations.PixelWritesItsMappedBit := by
  refine fun s c x y hready hmode => ⟨fun hcanvas => ?_, fun hout => ?_⟩
  · refine ⟨_, exec_pixel_of_some hready hmode (resolvePanel_of_inCanvas hcanvas), ?_⟩
    rw [← colorOn_eq]
    exact fbWriteBit_oneBitWritten _ _ _
  · exact exec_pixel_of_none hready hmode (resolvePanel_of_not_inCanvas hout)

/-! ## FLUSH (44_sequencer R167) -/

theorem exec_flush_of_buffered {s : State} (hready : s.ready = true) (hmode : s.mode = .buffered) :
    exec .flush s = finishIo (flushTraffic s.cfg.errPolicy s.addr (s.cfg.flushPrefix.map PrefixItem.toScript) s.fb
      s.cfg.geometry.fbLen s.answers) s := by
  rw [exec, execFlush, bufferedCheck_passes _ hready hmode]

section Traffic

variable {p : ErrPolicy} {a : BusAddr} {items : List ScriptItem} {fb : Memory} {n : Nat} {ts : List TxAnswer}
  {r : Sent}

/-- After a P_FLUSH_PREFIX that the policy lets pass comes the data run. -/
theorem flushTraffic_of_prefix (hr : runScript p a items false ts = some r)
    (hgo : ¬ (p = .failFast ∧ r.failed = true)) :
    flushTraffic p a items fb n ts =
      (frameRun a fb 0 n r.rest).map (fun r' => ⟨r.failed || r'.failed, r.events ++ r'.events, r'.rest⟩) := by
  simp only [flushTraffic, hr, if_neg hgo]
  cases frameRun a fb 0 n r.rest <;> rfl

/-- After a P_FLUSH_PREFIX that failed under FAIL_FAST comes nothing. -/
theorem flushTraffic_of_failed_prefix (hr : runScript .failFast a items false ts = some r) (hfail : r.failed = true) :
    flushTraffic .failFast a items fb n ts = some r := by
  rw [flushTraffic, hr]
  exact if_pos ⟨rfl, hfail⟩

end Traffic

/-- Behind a P_FLUSH_PREFIX that the policy lets pass, a data run with progress sends FB, and STATUS says whether the
commands before it failed. -/
theorem exec_flush_of_prefix {s : State} {r : Sent} (hready : s.ready = true) (hmode : s.mode = .buffered)
    (hr : runScript s.cfg.errPolicy s.addr (s.cfg.flushPrefix.map PrefixItem.toScript) false s.answers = some r)
    (hgo : ¬ (s.cfg.errPolicy = .failFast ∧ r.failed = true)) (hprogress : AllProgress r.rest s.cfg.geometry.fbLen) :
    ∃ es rest, exec .flush s = .next { s with
        trace := s.trace ++ r.events ++ es, answers := rest, status := ioStatus r.failed, pos := s.pos + 1 } ∧
      rest <:+ s.answers ∧ payloadBytes es = s.fb.slice 0 s.cfg.geometry.fbLen := by
  obtain ⟨es, rest, hrun⟩ := runLoop_passes s.addr s.fb r.rest 0 s.cfg.geometry.fbLen hprogress
  obtain ⟨hslice, -⟩ := dataRunProperties _ _ _ _ _ _ hrun
  refine ⟨es, rest, ?_, (runLoop_rest _ _ _ _ _ _ hrun).trans (runScript_rest _ _ _ _ _ _ hr), hslice rfl⟩
  rw [exec_flush_of_buffered hready hmode, flushTraffic_of_prefix hr hgo, frameRun, hrun, Option.map_some,
    finishIo_some, Bool.or_false, List.append_assoc]

/-- Settles O56: P_FLUSH_PREFIX passes, and FB follows it. -/
theorem flushSendsTheFramebuffer : Obligations.FlushSendsTheFramebuffer := by
  rintro s n hready hmode rfl hsucceed hprogress
  obtain ⟨es, rest, hexec, hrest, hslice⟩ :=
    exec_flush_of_prefix hready hmode (runScript_of_allSucceed _ _ hsucceed) (by simp) hprogress
  exact ⟨es, rest, hexec, hrest, hslice, by rw [hslice, Memory.slice_length]⟩

/-- Settles O57: P_FLUSH_PREFIX fails with every item framed, and FB follows it. -/
theorem flushAccumulatesFailures : Obligations.FlushAccumulatesFailures := by
  rintro s n hready hmode hpolicy rfl hlen hfail hprogress
  have hr := runScript_accumulate_of_failure s.addr hlen hfail
  rw [← hpolicy] at hr
  obtain ⟨es, rest, hexec, -, hslice⟩ := exec_flush_of_prefix hready hmode hr (by simp [hpolicy]) hprogress
  exact ⟨es, rest, hexec, hslice⟩

/-- Settles O58: P_FLUSH_PREFIX ends at its failed item, and nothing follows it. -/
theorem flushFailsFast : Obligations.FlushFailsFast := by
  rintro s before after x hready hmode hpolicy hprefix hbefore ⟨t, ht, hfail⟩
  rw [← busItems_map_toScript before] at hbefore ht
  have hr := runScript_stops_at_failure s.addr (after.map PrefixItem.toScript)
    (busItems_map_toScript [x]) hbefore ht hfail
  rw [exec_flush_of_buffered hready hmode, hpolicy, hprefix, List.map_append, List.map_cons,
    flushTraffic_of_failed_prefix hr rfl, finishIo_some, busItems_map_toScript, List.map_append]
  rfl

/-! ## Two flushes (44_sequencer R168) -/

/-- A run that leaves all its answers had nothing to send. -/
theorem eq_zero_of_runLoop_rest_eq {a : BusAddr} {fb : Memory} {ts : List TxAnswer} {i left : Nat} {r : Sent}
    (h : runLoop a fb ts i left = some r) (hrest : r.rest = ts) : left = 0 := by
  obtain ⟨hleft, -⟩ | ⟨-, t, rest, rfl, -, rfl⟩ | ⟨-, t, rest, r', rfl, -, h', rfl⟩ := runLoop_eq_some _ _ _ _ _ _ h
  · exact hleft
  · exact absurd hrest List.ne_cons_self
  · have hle := (runLoop_rest _ _ _ _ _ _ h').length_le
    have hlen : r'.rest.length = (t :: rest).length := congrArg List.length hrest
    rw [List.length_cons] at hlen
    omega

/-- What a run emits is decided by the answers it uses, whatever answers follow them. -/
theorem runLoop_of_same_used (a : BusAddr) (fb : Memory) (used ts ts' : List TxAnswer) :
    ∀ (i left : Nat) (r : Sent), runLoop a fb (used ++ ts) i left = some r → r.rest = ts →
      runLoop a fb (used ++ ts') i left = some ⟨r.failed, r.events, ts'⟩ := by
  induction used with
  | nil =>
    intro i left r h hrest
    obtain rfl := eq_zero_of_runLoop_rest_eq h hrest
    rw [runLoop_done] at h
    obtain rfl := Option.some.inj h
    exact runLoop_done ..
  | cons t used ih =>
    intro i left r h hrest
    obtain ⟨-, rfl⟩ | ⟨hleft, x, rest, e, hx, rfl⟩ | ⟨hleft, x, rest, r', e, hx, h', rfl⟩ :=
      runLoop_eq_some _ _ _ _ _ _ h
    · cases List.append_left_eq_self.1 hrest
    · cases e
      have hused : used = [] := List.append_left_eq_self.1 hrest
      rw [List.cons_append, runLoop_failed _ _ _ _ _ _ hleft hx, hused, List.nil_append]
    · cases e
      rw [List.cons_append, runLoop_accepted _ _ _ _ _ _ hleft hx, ih _ _ _ h' hrest, Option.map_some]

/-- P_FLUSH_PREFIX on the wire, each of its bytes accepted (30_encoding R74, R75). -/
theorem wireBytes_scriptEvents_prefix (a : BusAddr) (items : List PrefixItem) : ∀ ts : List TxAnswer,
    items.length ≤ ts.length → (∀ x ∈ ts.take items.length, 1 ≤ x.disc ∧ 1 ≤ x.payload) →
    wireBytes (scriptEvents a (items.map PrefixItem.toScript) ts) = prefixWire items := by
  induction items with
  | nil => intro ts _ _; rfl
  | cons x items ih =>
    intro ts hlen haccept
    cases ts with
    | nil => exact absurd hlen (Nat.not_succ_le_zero _)
    | cons t ts =>
      obtain ⟨⟨hdisc, hpayload⟩, hrest⟩ := List.forall_mem_cons.1 haccept
      have hitems := ih ts (Nat.le_of_succ_le_succ hlen) hrest
      cases x with
      | cmd b | data b =>
        simp only [List.map_cons, PrefixItem.toScript, scriptEvents, wireBytes_transaction, hitems,
          Nat.min_eq_right hdisc, Nat.min_eq_right hpayload]
        rfl

/-- `FlushOk s t d`: from `s` a flush has ended with OK in `t`, and `d` is what its data run emitted. -/
structure FlushOk (s t : State) (d : List Event) : Prop where
  prefix_answered : AllSucceed s.answers s.cfg.flushPrefix.length
  run : frameRun s.addr s.fb 0 s.cfg.geometry.fbLen (s.answers.drop s.cfg.flushPrefix.length) =
    some ⟨false, d, t.answers⟩
  state_eq : t = { s with
    status := .ok, pos := s.pos + 1, answers := t.answers
    trace := s.trace ++ scriptEvents s.addr (s.cfg.flushPrefix.map PrefixItem.toScript) s.answers ++ d }

/-- A flush of a ready buffered block that ends with OK had P_FLUSH_PREFIX and its data run pass. -/
theorem flushOk_of_exec {s t : State} (hready : s.ready = true) (hmode : s.mode = .buffered)
    (h : exec .flush s = .next t) (hok : t.status = .ok) : ∃ d, FlushOk s t d := by
  rw [exec_flush_of_buffered hready hmode] at h
  obtain ⟨r, hr, rfl⟩ := finishIo_eq_next _ _ _ h
  have hpass : r.failed = false := (ioStatus_eq_ok_iff _).1 hok
  obtain ⟨r1, h1, ⟨-, hfail, rfl⟩ | ⟨-, r2, h2, rfl⟩⟩ := flushTraffic_eq_some _ _ _ _ _ _ _ hr
  · cases hfail.symm.trans hpass
  · obtain ⟨hpass1, hpass2⟩ := Bool.or_eq_false_iff.1 hpass
    have hsucceed := allSucceed_of_runScript_passes _ _ _ _ _ h1 hpass1
    rw [runScript_of_allSucceed _ _ hsucceed] at h1
    obtain rfl := Option.some.inj h1
    rw [busItems_map_toScript] at hsucceed h2
    refine ⟨r2.events, hsucceed, ?_, ?_⟩
    · rw [h2, ← hpass2]
    · simp [hpass2]

namespace FlushOk

variable {s t u : State} {d d' : List Event}

theorem payload_eq (h : FlushOk s t d) : payloadBytes d = s.fb.slice 0 s.cfg.geometry.fbLen := by
  obtain ⟨hslice, -⟩ := dataRunProperties _ _ _ _ _ _ h.run
  exact hslice rfl

theorem wire_eq (h : FlushOk s t d)
    (haccept : ∀ x ∈ s.answers.take s.cfg.flushPrefix.length, 1 ≤ x.disc ∧ 1 ≤ x.payload) :
    wireBytes (scriptEvents s.addr (s.cfg.flushPrefix.map PrefixItem.toScript) s.answers) =
      prefixWire s.cfg.flushPrefix :=
  wireBytes_scriptEvents_prefix _ _ _ h.prefix_answered.1 haccept

/-- P_FLUSH_PREFIX is framed with answers that the flush uses. -/
theorem prefix_length_le (h : FlushOk s t d) {used : List TxAnswer} (hused : s.answers = used ++ t.answers) :
    s.cfg.flushPrefix.length ≤ used.length := by
  have hle : t.answers.length ≤ (s.answers.drop s.cfg.flushPrefix.length).length :=
    (runLoop_rest _ _ _ _ _ _ h.run).length_le
  have hprefix := h.prefix_answered.1
  rw [List.length_drop] at hle
  rw [hused, List.length_append] at hle hprefix
  omega

theorem trace_eq (h : FlushOk s t d) :
    t.trace = s.trace ++ scriptEvents s.addr (s.cfg.flushPrefix.map PrefixItem.toScript) s.answers ++ d :=
  congrArg State.trace h.state_eq

/-- A flush is decided by the configuration, ADDR, FB and the answers it uses. -/
theorem events_eq_of_same_used {s' t' : State} (h : FlushOk s t d) (h' : FlushOk s' t' d') (hcfg : s'.cfg = s.cfg)
    (haddr : s'.addr = s.addr) (hfb : s'.fb = s.fb) {used : List TxAnswer} (hused : s.answers = used ++ t.answers)
    (hused' : s'.answers = used ++ t'.answers) :
    scriptEvents s.addr (s.cfg.flushPrefix.map PrefixItem.toScript) s.answers =
      scriptEvents s'.addr (s'.cfg.flushPrefix.map PrefixItem.toScript) s'.answers ∧ d = d' := by
  have hlen := h.prefix_length_le hused
  constructor
  · rw [haddr, hcfg, hused, hused', scriptEvents_answers_append, scriptEvents_answers_append] <;>
      rwa [busItems_map_toScript]
  · have hrun := h.run
    have hrun' := h'.run
    rw [hused, List.drop_append_of_le_length hlen, frameRun] at hrun
    rw [hcfg, haddr, hfb, hused', List.drop_append_of_le_length hlen, frameRun,
      runLoop_of_same_used _ _ _ _ _ _ _ _ hrun rfl] at hrun'
    exact congrArg Sent.events (Option.some.inj hrun')

end FlushOk

/-- Settles O59: a flush changes none of what its bytes are taken from. -/
theorem flushIsIdempotent : Obligations.FlushIsIdempotent := by
  intro s t u hready hmode hst htok htu huok
  obtain ⟨d, h⟩ := flushOk_of_exec hready hmode hst htok
  obtain ⟨hcfg, hmode', hready', haddr, hfb⟩ :
      t.cfg = s.cfg ∧ t.mode = s.mode ∧ t.ready = s.ready ∧ t.addr = s.addr ∧ t.fb = s.fb := by
    rw [h.state_eq]
    exact ⟨rfl, rfl, rfl, rfl, rfl⟩
  obtain ⟨d', h'⟩ := flushOk_of_exec (hready'.trans hready) (hmode'.trans hmode) htu huok
  refine ⟨_, d, _, d', h.trace_eq, h'.trace_eq, h.payload_eq, ?_, h.wire_eq, fun haccept => ?_,
    fun used hused hused' => h.events_eq_of_same_used h' hcfg haddr hfb hused hused'⟩
  · rw [h'.payload_eq, h.payload_eq, hfb, hcfg]
  · rw [← hcfg] at haccept ⊢
    exact h'.wire_eq haccept

end Sys2Proof.Machine
end

section
/-!
PROOFS. The exceptions family. `exec_of_faultCause_eq_some` says that a fault of the table (60_exceptions R203, R205) is raised,
`exec_completes` what an operation leaves when the table names none (R201); `runScript_hangs` is the transport that stops
answering inside a script (R210).
-/

namespace Sys2Proof.Machine

open Sys2Proof.Claims

/-! ## Faults (60_exceptions R203, R205) -/

/-- The check the four framebuffer operations begin with: READY comes before MODE (60_exceptions R205). -/
theorem bufferedCheck_notReady {s : State} (r : Result) (hready : s.ready = false) :
    (if s.ready = false then raise .notReady s else if s.mode ≠ .buffered then finish .unsupported s else r) =
      .next { s with fault := 0x02#8 } := by
  rw [if_pos hready]; rfl

theorem exec_sendRun_of_unbound {s : State} {off len : Field24} (hunbound : s.mode = .uninit) :
    exec (.sendRun off len) s = .next { s with fault := 0x04#8 } := by
  rw [exec, execSendRun, if_pos hunbound]; rfl

/-- A fault that the table names is raised, and changes nothing but FAULT. -/
theorem exec_of_faultCause_eq_some {i : Instr} {s : State} {c : Byte} (h : faultCause i s = some c) :
    exec i s = .next { s with fault := c } := by
  cases i with
  | setup | setRotation | resolve | probe => cases h
  | pixel | clear | flush =>
    obtain ⟨hready, hc⟩ := Option.ite_none_right_eq_some.1 h
    cases hc
    exact bufferedCheck_notReady _ hready
  | psetRaw color x y =>
    rw [faultCause] at h
    split_ifs at h with hready hout <;> cases h
    · exact bufferedCheck_notReady _ hready
    · exact exec_psetRaw_of_outside (Bool.eq_true_of_not_eq_false hready) hout.1 hout.2
  | sendCmd b | sendData b =>
    obtain ⟨hunbound, hc⟩ := Option.ite_none_right_eq_some.1 h
    cases hc
    exact sendByte_of_unbound _ b hunbound
  | sendRun off len =>
    rw [faultCause] at h
    split_ifs at h with hunbound hout <;> cases h
    · exact exec_sendRun_of_unbound hunbound
    · exact exec_sendRun_of_outside hunbound hout

/-! ## Completed operations (60_exceptions R201) -/

/-- A bus operation reports OK or IO_ERROR. -/
theorem ioStatus_mem {l : List Status} (failed : Bool) (hok : .ok ∈ l) (hio : .ioError ∈ l) : ioStatus failed ∈ l := by
  cases failed with
  | false => exact hok
  | true => exact hio

/-- A bound SEND_CMD or SEND_DATA (41_protocol R106, R107). -/
theorem sendByte_completes {d b : Byte} {s t : State} (hbound : s.mode ≠ .uninit) (h : sendByte d b s = .next t) :
    t.fault = s.fault ∧ t.status ∈ [.ok, .ioError] := by
  rw [sendByte, if_neg hbound] at h
  obtain ⟨r, -, rfl⟩ := finishIo_eq_next _ _ _ h
  exact ⟨rfl, ioStatus_mem _ (by simp) (by simp)⟩

/-- Where the table names no fault, FAULT is kept and the status is one of the operation's row: the branches of `exec`
that raise are those in which the table names a fault. -/
theorem exec_completes {i : Instr} {s t : State} (hnone : faultCause i s = none) (h : exec i s = .next t) :
    t.fault = s.fault ∧ t.status ∈ mayReport i := by
  cases i with
  | setup a =>
    obtain ⟨-, rfl⟩ | ⟨-, r, -, rfl⟩ := execSetup_eq_next a s t h
    · exact ⟨rfl, by simp [mayReport]⟩
    · exact ⟨rfl, ioStatus_mem _ (by simp [mayReport]) (by simp [mayReport])⟩
  | setRotation b =>
    obtain rfl := (finish_eq_next _ _ _).1 h
    exact ⟨rfl, by simp [mayReport]⟩
  | resolve x y =>
    obtain ⟨-, rfl⟩ | ⟨p, -, rfl⟩ := execResolve_eq_next x y s t h <;> exact ⟨rfl, by simp [mayReport]⟩
  | pixel c x y =>
    obtain ⟨hready, -⟩ | ⟨-, -, rfl⟩ | ⟨-, -, -, rfl⟩ | ⟨-, -, p, -, rfl⟩ := execPixel_eq_next c x y s t h
    · simp [faultCause, hready] at hnone
    all_goals exact ⟨rfl, by simp [mayReport]⟩
  | psetRaw c x y =>
    obtain ⟨hready, -⟩ | ⟨-, -, rfl⟩ | ⟨hready, hmode, hout, -⟩ | ⟨-, -, -, -, rfl⟩ := execPsetRaw_eq_next c x y s t h
    · simp [faultCause, hready] at hnone
    · exact ⟨rfl, by simp [mayReport]⟩
    · simp [faultCause, hready, hmode, hout] at hnone
    · exact ⟨rfl, by simp [mayReport]⟩
  | clear =>
    obtain ⟨hready, -⟩ | ⟨-, -, rfl⟩ | ⟨-, -, rfl⟩ := execClear_eq_next s t h
    · simp [faultCause, hready] at hnone
    all_goals exact ⟨rfl, by simp [mayReport]⟩
  | flush =>
    obtain ⟨hready, -⟩ | ⟨-, -, rfl⟩ | ⟨-, -, r, -, rfl⟩ := execFlush_eq_next s t h
    · simp [faultCause, hready] at hnone
    · exact ⟨rfl, by simp [mayReport]⟩
    · exact ⟨rfl, ioStatus_mem _ (by simp [mayReport]) (by simp [mayReport])⟩
  | sendCmd b | sendData b => exact sendByte_completes (by simpa [faultCause] using hnone) h
  | sendRun off len =>
    obtain ⟨hunbound, -⟩ | ⟨hbound, hout, -⟩ | ⟨-, -, r, -, rfl⟩ := execSendRun_eq_next off len s t h
    · simp [faultCause, hunbound] at hnone
    · simp [faultCause, hbound, hout] at hnone
    · exact ⟨rfl, ioStatus_mem _ (by simp [mayReport]) (by simp [mayReport])⟩
  | probe =>
    obtain ⟨-, rfl⟩ | ⟨-, x, rest, -, rfl⟩ := execProbe_eq_next s t h <;> exact ⟨rfl, by simp [mayReport]⟩

/-! ## A transport that stops answering (60_exceptions R210) -/

/-- A script hangs when the answers run out inside it and none of them stops it before. -/
theorem runScript_hangs (p : ErrPolicy) (a : BusAddr) (items : List ScriptItem) : ∀ ts : List TxAnswer,
    ts.length < busItems items → (∀ t ∈ ts, t.status = 0) → runScript p a items false ts = none := by
  induction items with
  | nil => intro ts hlen _; exact absurd hlen (Nat.not_lt_zero _)
  | cons x items ih =>
    intro ts hlen hok
    rw [runScript_cons _ _ _ _ _ _ (by simp)]
    cases x with
    | wait ms => rw [frameItem, Option.bind_some, Bool.or_false, ih ts hlen hok, Option.map_none]
    | cmd b | data b =>
      cases ts with
      | nil => rfl
      | cons t ts =>
        obtain ⟨ht, hts⟩ := List.forall_mem_cons.1 hok
        rw [frameItem, frameByte_cons, Option.bind_some, ht, bne_self_eq_false, Bool.or_false,
          ih ts (Nat.lt_of_succ_lt_succ hlen) hts, Option.map_none]

/-- SETUP hangs in its script (44_sequencer R160). -/
theorem exec_setup_of_hang {s : State} {a : Byte} (ha : addrLegal a = true)
    (hr : runScript s.cfg.errPolicy (addrBits a) s.cfg.initScript false s.answers = none) :
    exec (.setup a) s = .fault .transportHang := by
  rw [exec, execSetup, if_neg (by simp [ha]), hr]

/-! ## The obligations -/

/-- Settles O16: the fault the table names is raised, and without one FAULT is kept. -/
theorem faultsAreExactlyTheTables : Obligations.FaultsAreExactlyTheTables :=
  fun _ _ hrunning => ⟨fun _ => exec_of_faultCause_eq_some, fun _ hnone h => (exec_completes hnone h).1.trans hrunning⟩

/-- Settles O17: the status of an operation that completes. -/
theorem statusesAreTheTables : Obligations.StatusesAreTheTables :=
  fun _ _ _ h hnone => (exec_completes hnone h).2

/-- Settles O53: the answers run out inside the script. -/
theorem setupWithoutAnswersHangs : Obligations.SetupWithoutAnswersHangs :=
  fun _ a ha hlen hok => exec_setup_of_hang ((addrLegal_iff a).2 ha) (runScript_hangs _ _ _ _ hlen hok)

/-- Settles O10: the step looks at FAULT first. -/
theorem stoppedBlockTakesNoStep : Obligations.StoppedBlockTakesNoStep := by
  intro s hs
  rw [step, if_pos ((isStopped_eq_true s).2 hs)]

end Sys2Proof.Machine
end

section
/-!
PROOFS. The reset and hazards family. `exec_drawing_of_not_ready` says that the framebuffer operations fault before a SETUP
has passed (70_reset_and_hazards R231, R242); `runScript_answered` that a script completes under either policy.
-/

namespace Sys2Proof.Machine

open Sys2Proof.Claims

/-! ## Before a SETUP that passed (60_exceptions R203) -/

/-- The four framebuffer operations need READY. -/
theorem exec_drawing_of_not_ready {s : State} (hready : s.ready = false) :
    (∀ c x y, exec (.pixel c x y) s = .next { s with fault := 0x02#8 }) ∧
    (∀ c x y, exec (.psetRaw c x y) s = .next { s with fault := 0x02#8 }) ∧
    exec .clear s = .next { s with fault := 0x02#8 } ∧
    exec .flush s = .next { s with fault := 0x02#8 } :=
  ⟨fun _ _ _ => exec_of_faultCause_eq_some (if_pos hready), fun _ _ _ => exec_of_faultCause_eq_some (if_pos hready),
    exec_of_faultCause_eq_some (if_pos hready), exec_of_faultCause_eq_some (if_pos hready)⟩

/-- A SETUP that ended with IO_ERROR had a legal address, and left the block bound to it but not ready. -/
theorem setup_ioError_inversion {s t : State} {a : Byte} (h : exec (.setup a) s = .next t)
    (hio : t.status = .ioError) : t.ready = false ∧ t.mode = .buffered ∧ legalBusAddr t.addr := by
  obtain ⟨-, rfl⟩ | ⟨ha, r, -, rfl⟩ := execSetup_eq_next a s t h
  · cases hio
  · have hfailed : r.failed = true := Bool.eq_true_of_not_eq_false fun hpass => by
      cases hio.symm.trans ((ioStatus_eq_ok_iff _).2 hpass)
    exact ⟨congrArg (! ·) hfailed, rfl, legalBusAddr_addrBits a ha⟩

/-! ## Operations that complete -/

/-- A script with an answer for each of its transactions completes, wherever the policy stops it (44_sequencer R161). -/
theorem runScript_answered (p : ErrPolicy) (a : BusAddr) (items : List ScriptItem) :
    ∀ (err : Bool) (ts : List TxAnswer), busItems items ≤ ts.length → ∃ r, runScript p a items err ts = some r := by
  induction items with
  | nil => exact fun err ts _ => ⟨_, runScript_nil p a err ts⟩
  | cons x items ih =>
    intro err ts hlen
    by_cases hstop : p = .failFast ∧ err = true
    · obtain ⟨rfl, rfl⟩ := hstop
      exact ⟨_, runScript_stop a (x :: items) ts⟩
    · rw [busItems_cons] at hlen
      have hitems : busItems items ≤ (ts.drop (busItems [x])).length := by rw [List.length_drop]; omega
      obtain ⟨r, hr⟩ := ih (err || (ts.take (busItems [x])).any txFailed) _ hitems
      rw [runScript_cons _ _ _ _ _ _ hstop, frameItem_of_answered a x (by omega), Option.bind_some, hr]
      exact ⟨_, rfl⟩

/-- SETUP completes, with a legal address or without, if the transport answers the script (44_sequencer R160). -/
theorem exec_setup_answered (a : Byte) {s : State} (hlen : busItems s.cfg.initScript ≤ s.answers.length) :
    ∃ t, exec (.setup a) s = .next t := by
  cases ha : addrLegal a with
  | false => exact ⟨_, exec_setup_of_illegal ha⟩
  | true =>
    obtain ⟨r, hr⟩ := runScript_answered s.cfg.errPolicy (a.setWidth 7) s.cfg.initScript false s.answers hlen
    exact ⟨_, exec_setup_of_runScript ha hr⟩

/-- RESOLVE completes in every state (42_transform R126). -/
theorem exec_resolve_completes (s : State) (x y : Half) : ∃ t, exec (.resolve x y) s = .next t := by
  cases h : resolvePanel s.cfg.geometry x.toInt y.toInt s.rot with
  | none => exact ⟨_, exec_resolve_of_none h⟩
  | some p => exact ⟨_, exec_resolve_of_some h⟩

/-! ## The obligations -/

/-- Settles O27: SETUP and RESOLVE complete and the fault table names none for them; the faults of the others are the
table's. -/
theorem whatWorksAfterReset : Obligations.WhatWorksAfterReset := by
  intro s hunbound hready hrunning
  refine ⟨fun a hlen => ?setup, fun b => setRotationStoresTheCode.1 s b, fun x y => ?resolve,
    probeReportsAcknowledge.1 s hunbound, fun b => sendByte_of_unbound _ b hunbound,
    fun b => sendByte_of_unbound _ b hunbound, fun _ _ => exec_sendRun_of_unbound hunbound,
    exec_drawing_of_not_ready hready⟩
  case setup =>
    obtain ⟨t, ht⟩ := exec_setup_answered a hlen
    exact ⟨t, ht, (faultsAreExactlyTheTables _ s hrunning).2 t rfl ht⟩
  case resolve =>
    obtain ⟨t, ht⟩ := exec_resolve_completes s x y
    exact ⟨t, ht, (faultsAreExactlyTheTables _ s hrunning).2 t rfl ht⟩

/-- Settles O55: such a SETUP left the block not ready. -/
theorem failedSetupBlocksDrawing : Obligations.FailedSetupBlocksDrawing := by
  intro s t a h hio
  obtain ⟨hready, hbound⟩ := setup_ioError_inversion h hio
  obtain ⟨hpixel, hpsetRaw, hclear, hflush⟩ := exec_drawing_of_not_ready hready
  exact ⟨hpixel, hpsetRaw, hclear, hflush, hbound⟩

/-- Settles O11: past the end of the words presented there is no next one. -/
theorem blockWaitsForAWord : Obligations.BlockWaitsForAWord := by
  intro s hrunning hend
  have hnone : s.nextWord = none := List.getElem?_eq_none hend
  rw [step, if_neg (by simp [hrunning]), hnone, await]

end Sys2Proof.Machine
end
